-- ==== Sys2Proof/Word.lean ====
section
/-! DEFINITION. The word types of the block (spec/00_scope.md R7, spec/30_encoding.md R67). -/

namespace Sys2Proof

/-- A tuning word: 32 bits, unsigned (R67). -/
abbrev Word := BitVec 32

/-- A micro-op word, a transfer byte or the eight data inputs of the chip (R68, R71, R73). -/
abbrev Byte := BitVec 8

/-- A raw host command, CMD[2:0] (R84). -/
abbrev Cmd := BitVec 3

end Sys2Proof
end

