-- ==== Sys2Proof/Config.lean ====
section
/-! DEFINITION. The parameters of a model instance (spec/00_scope.md R8, R9), and the values the spec leaves free. -/

namespace Sys2Proof

/-- OVERRUN (R9): what becomes of a tick that arrives while BUSY = 1. -/
inductive Overrun where
  /-- Held in PENDING, at most one (R131). -/
  | delay
  /-- Lost (R132). -/
  | drop
  /-- One of the two, a free draw for each tick (R133). -/
  | either
  deriving DecidableEq, Repr, Inhabited

/-- The point of one unit interval at which ROUND goes from floor to ceiling: a fractional part above `num / den`
rounds up, one below it down, and one equal to it up when `inclusive`. -/
structure Cut where
  num : Nat
  den : Nat
  inclusive : Bool
  deriving DecidableEq, Repr, Inhabited

/-- ROUND (R9, R102) as plain data: a cut for every unit interval, `default` where `exceptions` lists none.
DEDUCED (log entry 4): a monotone ROUND that is floor or ceiling and exact on naturals is one cut for each interval;
the arguments one BUILD rounds are finitely many, so finitely many exceptions reach every such ROUND. -/
structure Rounding where
  default : Cut
  exceptions : List (Nat × Cut)
  deriving DecidableEq, Repr, Inhabited

/-- The default ROUND: round half up, floor (x + 1/2) (R102). -/
def Rounding.halfUp : Rounding := { default := ⟨1, 2, true⟩, exceptions := [] }

/-- ROUND = floor (R102 admits it). -/
def Rounding.floor : Rounding := { default := ⟨1, 1, false⟩, exceptions := [] }

/-- ROUND = ceiling (R102 admits it). -/
def Rounding.ceil : Rounding := { default := ⟨0, 1, true⟩, exceptions := [] }

/-- The configuration of a model instance (R8) and its behaviour parameters (R9). Fixed for the life of the instance. -/
structure Config where
  /-- CARRIER_HZ (R8). -/
  carrierHz : Nat
  /-- CLOCK_HZ (R8). A clock of 0 is a configuration BUILD refuses (R94), so the type admits it. -/
  clockHz : Nat
  /-- DEV_SCALE in kHz (R8), an exact rational. A value <= 0 is one BUILD refuses (R94), so the type admits it. -/
  devScale : Rat
  /-- REF[0..31] (R8). -/
  ref : Vector Nat 32
  /-- ROUND (R9, R102). -/
  rounding : Rounding
  /-- OVERRUN (R9). -/
  overrun : Overrun
  /-- CURSOR_INIT (R9). -/
  cursorInit : BitVec 6
  /-- TICK_PERIOD in sequencer cycles; `none` is unconstrained (R9). For a period of 0 see log entry 26. -/
  tickPeriod : Option Nat
  /-- T_CYCLE, the physical length of one sequencer cycle (R9, R205). -/
  tCycle : Rat
  deriving DecidableEq, Repr, Inhabited

/-! The free values. None has a body: nothing evaluates one, and a claim holds whatever they are. -/

/-- CARRIER_HZ of the instance that `State.reset` belongs to (R8; log entry 2). -/
opaque Config.openCarrierHz : Nat
/-- CLOCK_HZ of that instance (R8; log entry 2). -/
opaque Config.openClockHz : Nat
/-- DEV_SCALE of that instance (R8; log entry 2). -/
opaque Config.openDevScale : Rat
/-- The samples of REF that the source does not list (R8, U2; log entry 5). -/
opaque Config.openSample : Nat → Nat
/-- T_CYCLE of that instance (R9; log entry 18). -/
opaque Config.openCycle : Rat
/-- What the n-th draw finds in a ROM entry or in WORD that holds no value (U23; log entry 6). -/
opaque Config.unwrittenWord : Nat → Word
/-- Whether the n-th draw delays an overrun tick under OVERRUN = Either (R133; log entry 7). -/
opaque Config.delaysOverrun : Nat → Bool

/-- REF with the two samples the source lists, REF[0] = 0 and REF[8] = 24296 (R8), and the other 30 free. -/
def Config.openRef : Vector Nat 32 :=
  Vector.ofFn fun i => if i.val = 0 then 0 else if i.val = 8 then 24296 else Config.openSample i.val

/-- The instance of `State.reset`: the open parameters of R8 free, the behaviour parameters at R9's defaults. -/
def Config.platform : Config where
  carrierHz := Config.openCarrierHz
  clockHz := Config.openClockHz
  devScale := Config.openDevScale
  ref := Config.openRef
  rounding := Rounding.halfUp
  overrun := .either
  cursorInit := 0
  tickPeriod := none
  tCycle := Config.openCycle

end Sys2Proof
end

