-- ==== Sys2Proof/Syntax.lean ====
section
/-! DEFINITION. The instructions: one constructor for each row of spec/opcode_table.json. -/

namespace Sys2Proof

/-- The 13 micro-op spellings and the 4 host commands (spec/30_encoding.md R74, R75, R84, R92).
`last` is a micro-op's END bit (R76). `j` selects byte_j(WORD), j = 0 the most significant (R75). -/
inductive Instr where
  /-- TRIG.SET (R111). -/
  | trigSet (last : Bool)
  /-- TRIG.CLR (R112). -/
  | trigClr (last : Bool)
  /-- FQUD.TGL (R113). -/
  | fqudTgl (last : Bool)
  /-- FQUD.CLR (R114). -/
  | fqudClr (last : Bool)
  /-- WCLK.TGL (R115). -/
  | wclkTgl (last : Bool)
  /-- RST.SET (R116). -/
  | rstSet (last : Bool)
  /-- RST.CLR (R117). -/
  | rstClr (last : Bool)
  /-- LOAD.W (R118). -/
  | loadW (last : Bool)
  /-- OUT.LO BYTEj (R119). -/
  | outLoByte (j : BitVec 2) (last : Bool)
  /-- OUT.LO CTRL (R119). -/
  | outLoCtrl (last : Bool)
  /-- OUT.HI BYTEj (R120). -/
  | outHiByte (j : BitVec 2) (last : Bool)
  /-- OUT.HI CTRL (R120). -/
  | outHiCtrl (last : Bool)
  /-- CUR.INC (R121). -/
  | curInc (last : Bool)
  /-- The command NOP (R150). -/
  | nop
  /-- The command BUILD (R93). -/
  | build
  /-- The command DDS_INIT (R151). -/
  | ddsInit
  /-- The command ARM (R155). -/
  | arm
  deriving DecidableEq, Repr

/-- The END bit of a micro-op; a command has none (R73, R76). -/
def Instr.endBit : Instr → Option Bool
  | .trigSet e | .trigClr e | .fqudTgl e | .fqudClr e | .wclkTgl e | .rstSet e | .rstClr e | .loadW e
  | .outLoByte _ e | .outLoCtrl e | .outHiByte _ e | .outHiCtrl e | .curInc e => some e
  | .nop | .build | .ddsInit | .arm => none

/-- Whether the instruction is a micro-op: an instruction of the sequencer and not of the host. -/
def Instr.isMicroOp (i : Instr) : Bool := i.endBit.isSome

end Sys2Proof
end

