-- ==== Sys2Proof/Decode.lean ====
section
/-! DEFINITION. Decoder, encoder and micro-program (spec/30_encoding.md R73 to R84, R92). -/

namespace Sys2Proof

/-- What stands at one of the block's two instruction inputs: a micro-op word at the sequencer (R73) or a
command code at the host port (R84). -/
inductive CodeWord where
  | microOp (m : Byte)
  | command (c : Cmd)
  deriving DecidableEq, Repr

/-- Why a code word is no instruction. -/
inductive DecodeError where
  /-- OP 0x0 or 0xC to 0xF (R77). -/
  | reservedOp (op : BitVec 4)
  /-- OUT.LO or OUT.HI with SEL 101, 110 or 111 (R77). -/
  | reservedSource (op : BitVec 4) (sel : BitVec 3)
  /-- An OP without operand and SEL not 000 (R77). -/
  | strayOperand (op : BitVec 4) (sel : BitVec 3)
  /-- CMD 100 to 111 (R84, R157). -/
  | reservedCommand (c : Cmd)
  deriving DecidableEq, Repr

/-- The field OP, bits 7:4 (R73). -/
def opField (m : Byte) : BitVec 4 := m.extractLsb' 4 4

/-- The END bit, bit 3 (R73). -/
def endField (m : Byte) : Bool := m.getLsbD 3

/-- The field SEL, bits 2:0 (R73). -/
def selField (m : Byte) : BitVec 3 := m.extractLsb' 0 3

/-- SIMPLE of R82: an OP that takes no operand. -/
def decodeSimple (m : Byte) (i : Bool → Instr) : Except DecodeError Instr :=
  if selField m = 0 then .ok (i (endField m)) else .error (.strayOperand (opField m) (selField m))

/-- OUT of R82: BYTEj when SEL[2] = 0, CTRL when SEL = 100 (R75). -/
def decodeOut (m : Byte) (byte : BitVec 2 → Bool → Instr) (ctrl : Bool → Instr) : Except DecodeError Instr :=
  if (selField m).getLsbD 2 = false then .ok (byte ((selField m).setWidth 2) (endField m))
  else if selField m = 4 then .ok (ctrl (endField m))
  else .error (.reservedSource (opField m) (selField m))

/-- `decode(m)` of R82, total on 8-bit words. -/
def decodeMicroOp (m : Byte) : Except DecodeError Instr :=
  match (opField m).toNat with
  | 0x1 => decodeSimple m .trigSet
  | 0x2 => decodeSimple m .trigClr
  | 0x3 => decodeSimple m .fqudTgl
  | 0x4 => decodeSimple m .fqudClr
  | 0x5 => decodeSimple m .wclkTgl
  | 0x6 => decodeSimple m .rstSet
  | 0x7 => decodeSimple m .rstClr
  | 0x8 => decodeSimple m .loadW
  | 0x9 => decodeOut m .outLoByte .outLoCtrl
  | 0xA => decodeOut m .outHiByte .outHiCtrl
  | 0xB => decodeSimple m .curInc
  | _ => .error (.reservedOp (opField m))

/-- The command codes (R84), total on 3-bit codes. -/
def decodeCommand (c : Cmd) : Except DecodeError Instr :=
  match c.toNat with
  | 0 => .ok .nop
  | 1 => .ok .build
  | 2 => .ok .ddsInit
  | 3 => .ok .arm
  | _ => .error (.reservedCommand c)

/-- The decoder over both inputs. No mode bit changes it (R83). -/
def decode : CodeWord → Except DecodeError Instr
  | .microOp m => decodeMicroOp m
  | .command c => decodeCommand c

/-- (OP << 4) | (END << 3) | SEL (R86). -/
def microOpWord (op : BitVec 4) (last : Bool) (sel : BitVec 3) : Byte :=
  op ++ (BitVec.ofBool last ++ sel)

/-- The SEL value of BYTEj (R75). -/
def byteSel (j : BitVec 2) : BitVec 3 := j.setWidth 3

/-- The SEL value of CTRL (R75). -/
def ctrlSel : BitVec 3 := 4

/-- The code word of an instruction (R74, R75, R84, R86). -/
def encode : Instr → CodeWord
  | .trigSet e => .microOp (microOpWord 0x1 e 0)
  | .trigClr e => .microOp (microOpWord 0x2 e 0)
  | .fqudTgl e => .microOp (microOpWord 0x3 e 0)
  | .fqudClr e => .microOp (microOpWord 0x4 e 0)
  | .wclkTgl e => .microOp (microOpWord 0x5 e 0)
  | .rstSet e => .microOp (microOpWord 0x6 e 0)
  | .rstClr e => .microOp (microOpWord 0x7 e 0)
  | .loadW e => .microOp (microOpWord 0x8 e 0)
  | .outLoByte j e => .microOp (microOpWord 0x9 e (byteSel j))
  | .outLoCtrl e => .microOp (microOpWord 0x9 e ctrlSel)
  | .outHiByte j e => .microOp (microOpWord 0xA e (byteSel j))
  | .outHiCtrl e => .microOp (microOpWord 0xA e ctrlSel)
  | .curInc e => .microOp (microOpWord 0xB e 0)
  | .nop => .command 0
  | .build => .command 1
  | .ddsInit => .command 2
  | .arm => .command 3

/-- The code word as the number spec/opcode_table.json numbers its bits by: bit 0 the least significant. -/
def CodeWord.toNat : CodeWord → Nat
  | .microOp m => m.toNat
  | .command c => c.toNat

/-- A row of spec/opcode_table.json: `mask` marks the bits the row fixes, `value` gives them (R92). -/
structure TableRow where
  mnemonic : String
  value : Nat
  mask : Nat
  deriving DecidableEq, Repr

/-- The row of spec/opcode_table.json an instruction belongs to (R92). -/
def Instr.tableRow : Instr → TableRow
  | .trigSet _ => ⟨"TRIG.SET", 0x10, 0xF7⟩
  | .trigClr _ => ⟨"TRIG.CLR", 0x20, 0xF7⟩
  | .fqudTgl _ => ⟨"FQUD.TGL", 0x30, 0xF7⟩
  | .fqudClr _ => ⟨"FQUD.CLR", 0x40, 0xF7⟩
  | .wclkTgl _ => ⟨"WCLK.TGL", 0x50, 0xF7⟩
  | .rstSet _ => ⟨"RST.SET", 0x60, 0xF7⟩
  | .rstClr _ => ⟨"RST.CLR", 0x70, 0xF7⟩
  | .loadW _ => ⟨"LOAD.W", 0x80, 0xF7⟩
  | .outLoByte _ _ => ⟨"OUT.LO_BYTEj", 0x90, 0xF4⟩
  | .outLoCtrl _ => ⟨"OUT.LO_CTRL", 0x94, 0xF7⟩
  | .outHiByte _ _ => ⟨"OUT.HI_BYTEj", 0xA0, 0xF4⟩
  | .outHiCtrl _ => ⟨"OUT.HI_CTRL", 0xA4, 0xF7⟩
  | .curInc _ => ⟨"CUR.INC", 0xB0, 0xF7⟩
  | .nop => ⟨"NOP", 0, 7⟩
  | .build => ⟨"BUILD", 1, 7⟩
  | .ddsInit => ⟨"DDS_INIT", 2, 7⟩
  | .arm => ⟨"ARM", 3, 7⟩

/-- The input a word of the opcode table belongs to. DEDUCED (log entry 10): a word below 8 is a 3-bit command code, since
as a micro-op it would have OP 0x0 and be no row of the table; any other 8-bit word is a micro-op. -/
def tableCodeWord (w : Nat) : Option CodeWord :=
  if w < 8 then some (.command (BitVec.ofNat 3 w))
  else if w < 256 then some (.microOp (BitVec.ofNat 8 w))
  else none

/-- The instruction the decoder reads from a word of the opcode table. Every row fits in one byte, so the row's
length `nbits` decides nothing. -/
def decodeTableWord (_nbits w : Nat) : Option Instr :=
  match tableCodeWord w with
  | none => none
  | some cw =>
    match decode cw with
    | .ok i => some i
    | .error _ => none

/-- MP[0..31], the constant contents of the sequencer's slots (R78): the tick sequence in slots 0 to 25, the DDS reset
sequence in slots 26 to 29, and two illegal words. -/
def microProgram : Vector Byte 32 := #v[
  0x10, 0x30, 0x30, 0x80, 0x94, 0xA4, 0x50, 0x50,
  0x90, 0xA0, 0x50, 0x50, 0x91, 0xA1, 0x50, 0x50,
  0x92, 0xA2, 0x50, 0x50, 0x93, 0xA3, 0x50, 0x50,
  0xB0, 0x28, 0x40, 0x70, 0x60, 0x78, 0x00, 0x00]

/-- TICK_ENTRY (R79). -/
def tickEntry : BitVec 5 := 0

/-- INIT_ENTRY (R79). -/
def initEntry : BitVec 5 := 26

/-- The slot whose END retires a tick sequence (R122). -/
def tickEnd : BitVec 5 := 25

/-- The slot whose END retires the DDS reset sequence (R122). -/
def initEnd : BitVec 5 := 29

end Sys2Proof
end

