-- ==== Sys2Proof/Machine/State.lean ====
section
/-! DEFINITION. The state of the block, the reasons a step can stop, and the state after reset (spec/10_state.md). -/

namespace Sys2Proof.Machine

/-- The causes of a fault of the block (spec/60_exceptions.md R175). `Flags.lean` gives their codes. -/
inductive FaultCode where
  /-- CLOCK_HZ = 0 or DEV_SCALE <= 0. -/
  | cfgInvalid
  /-- base > 2^32 - 1. -/
  | cfgBaseRange
  /-- base + DEV[i] > 2^32 - 1. -/
  | cfgEntryOverflow
  /-- base - DEV[i] < 0. -/
  | cfgEntryUnderflow
  /-- BUILD with BUILT = 1, before ARM. -/
  | rebuild
  /-- ARM with BUILT = 0 or INITD = 0. -/
  | armBeforeInit
  /-- BUILD, DDS_INIT or ARM with ARMED = 1. -/
  | cmdAfterArm
  /-- CMD in 100 to 111. -/
  | illegalCommand
  /-- An illegal micro-op word is executed. -/
  | illegalMicroop
  deriving DecidableEq, Repr

/-- One write of an output line or bus, with the value after the write (R34, R35). MOD_DISABLE has none (R166). -/
inductive LineWrite where
  | trig (v : Bool)
  | fqUd (v : Bool)
  | wClk (v : Bool)
  | reset (v : Bool)
  | dataLo (v : BitVec 6)
  | dataHi (v : BitVec 2)
  deriving DecidableEq, Repr

/-- One entry of the event trace TR (R35). -/
inductive Event where
  | line (w : LineWrite)
  | tickAccepted
  | tickDelayed
  | tickDropped
  | fault (code : FaultCode) (info : BitVec 6)
  deriving DecidableEq, Repr

/-- One entry of the schedule of what happens outside the block: R17's event level, and its cycle level in `cycle`. -/
inductive Input where
  /-- PWR_RESET (R85, R192). -/
  | pwrReset
  /-- TICK (R85, R126). -/
  | tick
  /-- The host presents CMD with CMD_VALID = 1 (R84). -/
  | command (c : Cmd)
  /-- Nothing happens outside while the sequencer takes one step (R17). -/
  | seqStep
  /-- The host script's RUN: nothing happens outside until BUSY = 0; each of its steps is one sequencer cycle (R88, R208). -/
  | run
  /-- One sequencer cycle with the levels of PWR_RESET and TICK and the command presented in it (R209). -/
  | cycle (pwr tick : Bool) (cmd : Option Cmd)
  deriving DecidableEq, Repr

/-- ROM as (index, word) cells, indices strictly rising (R46, R47). An index without a cell holds no value (R21). -/
abbrev Memory := List (Nat × Word)

/-- The state: the tuple of R20, the ghost state of R35 and R36, the instance's constants (R8, R9, R78), and the
model's own `held`, `inputs` and `draws`. -/
structure State where
  /-- The configuration, fixed (R8, R193; log entry 2). -/
  cfg : Config
  /-- The micro-program MP, fixed (R80, R193; log entry 3). -/
  mp : Vector Byte 32
  /-- ROM (R21). -/
  rom : Memory
  /-- BASE, or no value (R22). -/
  base : Option Word
  /-- CURSOR (R23). -/
  cursor : BitVec 6
  /-- WORD, or no value (R24). -/
  word : Option Word
  /-- SEQ_PC (R26). -/
  seqPc : BitVec 5
  /-- BUSY (R27). -/
  busy : Bool
  /-- PENDING (R28). -/
  pending : Bool
  /-- BUILT (R29). -/
  built : Bool
  /-- INITD (R30). -/
  initd : Bool
  /-- ARMED (R31). -/
  armed : Bool
  /-- FAULTED (R32). -/
  faulted : Bool
  /-- FAULT_CODE (R32). -/
  faultCode : BitVec 4
  /-- FAULT_INFO (R32). -/
  faultInfo : BitVec 6
  /-- Output line TRIG (R34). -/
  trig : Bool
  /-- Output line FQ_UD (R34). -/
  fqUd : Bool
  /-- Output line W_CLK (R34). -/
  wClk : Bool
  /-- Output line RESET (R34). -/
  resetLine : Bool
  /-- Output line MOD_DISABLE, never written (R34, R166). -/
  modDisable : Bool
  /-- Output bus DATA_LO (R34). -/
  dataLo : BitVec 6
  /-- Output bus DATA_HI (R34). -/
  dataHi : BitVec 2
  /-- The event trace TR, oldest first, ghost (R35). -/
  trace : List Event
  /-- SERVICED, ghost (R36). -/
  serviced : Nat
  /-- OVERRUNS, ghost (R36). -/
  overruns : Nat
  /-- DROPPED, ghost (R36). -/
  dropped : Nat
  /-- The commands the host keeps on the port while they are held, oldest first (R148; log entry 12). -/
  held : List Cmd
  /-- What happens outside the block, front first (log entry 1). -/
  inputs : List Input
  /-- How many free values have been drawn (log entry 6). -/
  draws : Nat
  deriving DecidableEq, Repr

/-- Why the machine itself would stop. It has no constructor: a fault of the block (R175) is a next state with
FAULTED = 1, in which R177 says what every later step does; no meaning raises a Host fault (log entry 9; safe). -/
inductive Fault where
  deriving DecidableEq, Repr

/-- Why a step would have no meaning. -/
inductive Refusal where
  /-- Raised by an arm of `exec` whose instruction has no meaning yet; no arm of this model does. Safe. -/
  | notModelled (mnemonic : String)
  deriving DecidableEq, Repr

/-- The outcome of a step or of a meaning. -/
abbrev Result := Host.Outcome State Fault Refusal

/-- The state after power-on of an instance with configuration `c` (R40). `held`, `inputs` and `draws` are the model's
own (log entries 1, 6 and 12). -/
def State.powerOn (c : Config) : State where
  cfg := c
  mp := microProgram
  rom := []
  base := none
  cursor := c.cursorInit
  word := none
  seqPc := 0
  busy := false
  pending := false
  built := false
  initd := false
  armed := false
  faulted := false
  faultCode := 0
  faultInfo := 0
  trig := false
  fqUd := false
  wClk := false
  resetLine := false
  modDisable := false
  dataLo := 0
  dataHi := 0
  trace := []
  serviced := 0
  overruns := 0
  dropped := 0
  held := []
  inputs := []
  draws := 0

/-- The state right after reset (R40, R194), of the instance whose open parameters are free. -/
def State.reset : State := State.powerOn Config.platform

end Sys2Proof.Machine
end

