-- ==== Sys2Proof/Machine/Flags.lean ====
section
/-! DEFINITION. Fault codes, the STATUS view and the flag writes (spec/10_state.md R27 to R33, R43).
The block has no arithmetic condition code (R43). -/

namespace Sys2Proof.Machine

/-- FAULT_CODE of a cause (R175). -/
def FaultCode.toCode : FaultCode → BitVec 4
  | .cfgInvalid => 1
  | .cfgBaseRange => 2
  | .cfgEntryOverflow => 3
  | .cfgEntryUnderflow => 4
  | .rebuild => 5
  | .armBeforeInit => 6
  | .cmdAfterArm => 7
  | .illegalCommand => 8
  | .illegalMicroop => 9

/-- STATUS (R33): BUILT, INITD, ARMED, BUSY, PENDING, FAULTED in bits 0 to 5, FAULT_CODE in bits 11:8, 0 elsewhere.
A read has no side effect (R65), so it is a function of the state. -/
def State.status (s : State) : BitVec 16 :=
  (0 : BitVec 4) ++ s.faultCode ++ (0 : BitVec 2) ++ BitVec.ofBool s.faulted ++ BitVec.ofBool s.pending
    ++ BitVec.ofBool s.busy ++ BitVec.ofBool s.armed ++ BitVec.ofBool s.initd ++ BitVec.ofBool s.built

/-- FAULT_INFO as the host reads it: 8 bits, bits 7:6 zero (R33). -/
def State.faultInfoView (s : State) : Byte := s.faultInfo.setWidth 8

/-- BUSY <- 1 with SEQ_PC at a sequence's entry: an accepted tick (R127) and an accepted DDS_INIT (R151). -/
def State.startSequence (s : State) (entry : BitVec 5) : State := { s with busy := true, seqPc := entry }

/-- INITD <- 1 when slot 29 retires (R122, R153). -/
def State.noteInit (s : State) (slot : BitVec 5) : State :=
  if slot = initEnd then { s with initd := true } else s

/-- SERVICED <- SERVICED + 1 when slot 25 retires (R122). -/
def State.noteServiced (s : State) (slot : BitVec 5) : State :=
  if slot = tickEnd then { s with serviced := s.serviced + 1 } else s

end Sys2Proof.Machine
end

