-- ==== Sys2Proof/Machine/Operands.lean ====
section
/-! DEFINITION. Operand forms and bus views (spec/20_memory.md R49 to R51, spec/30_encoding.md R67 to R75). -/

namespace Sys2Proof.Machine

/-- byte_j(w) = (w >> (8*(3-j))) & 0xFF, so byte_0 is the most significant (R12, R68). -/
def byteOf (w : Word) (j : BitVec 2) : Byte := (w >>> (8 * (3 - j.toNat))).setWidth 8

/-- lane k = w[8k+7:8k] (R67). -/
def laneOf (w : Word) (k : BitVec 2) : Byte := w.extractLsb' (8 * k.toNat) 8

/-- The control byte, all zero (R72). -/
def controlByte : Byte := 0x00

/-- The operand of OUT.LO and OUT.HI (R75). -/
inductive Source where
  | byte (j : BitVec 2)
  | ctrl
  deriving DecidableEq, Repr

/-- src(SEL), with `w` the value WORD is read as; CTRL does not use it (R75). -/
def Source.value (w : Word) : Source → Byte
  | .byte j => byteOf w j
  | .ctrl => controlByte

/-- b[5:0], what DATA_LO carries of a byte (R70, R91). -/
def lowSix (b : Byte) : BitVec 6 := b.extractLsb' 0 6

/-- b[7:6], what DATA_HI carries of a byte (R70, R91). -/
def highTwo (b : Byte) : BitVec 2 := b.extractLsb' 6 2

/-- BUS = {DATA_HI, DATA_LO} (R71). -/
def busOf (hi : BitVec 2) (lo : BitVec 6) : Byte := hi ++ lo

/-- BUS as the chip sees it now (R34, R71). -/
def State.bus (s : State) : Byte := busOf s.dataHi s.dataLo

/-- DATA_LO in its port position (R70). The other bits of the port are not modelled (U7); here they are 0. -/
def State.dataLoPort (s : State) : Byte := s.dataLo.setWidth 8

/-- DATA_HI in its port position, bits 7:6: {DATA_HI, 000000} (R70, C5). The other bits are not modelled (U7). -/
def State.dataHiPort (s : State) : Byte := s.dataHi ++ (0 : BitVec 6)

/-- The frequency in Hz that a word stands for: w * CLOCK_HZ / 2^32 (R69). No step computes it. -/
def frequencyOf (c : Config) (w : Word) : Rat := w.toNat * c.clockHz / 4294967296

end Sys2Proof.Machine
end

