-- ==== Sys2Proof/Machine/Ops.lean ====
section
/-! DEFINITION. The shared operations: ROM, WORD, output lines, raising a fault, taking and ending a tick, PWR_RESET. -/

namespace Sys2Proof.Machine

/-! ### ROM (spec/20_memory.md R46 to R48) -/

/-- What ROM entry `i` holds, or no value (R21). -/
def Memory.read : Memory → Nat → Option Word
  | [], _ => none
  | (a, v) :: m, i => if a = i then some v else Memory.read m i

/-- MemWrite(i, 4, v) (R12), keeping the cells in rising index order. -/
def Memory.write : Memory → Nat → Word → Memory
  | [], i, v => [(i, v)]
  | (a, u) :: m, i, v =>
    if i < a then (i, v) :: (a, u) :: m
    else if i = a then (i, v) :: m
    else (a, u) :: Memory.write m i v

/-- The cells from index `lo` up are rising and inside the ROM's 64 entries (R46). -/
def Memory.wfFrom : Nat → Memory → Bool
  | _, [] => true
  | lo, (a, _) :: m => decide (lo ≤ a) && decide (a < 64) && Memory.wfFrom (a + 1) m

/-- The canonical form: strictly rising indices below 64. A cell never equals what an unlisted index reads as, since
that is no value. -/
def Memory.wf (m : Memory) : Bool := Memory.wfFrom 0 m

/-- ROM[CURSOR] as LOAD.W reads it (R118). An entry that holds no value reads as a free value (U23; log entry 6). -/
def State.romAtCursor (s : State) : Word :=
  (s.rom.read s.cursor.toNat).getD (Config.unwrittenWord s.draws)

/-- WORD as OUT.LO and OUT.HI read it (R119). A WORD that holds no value reads as a free value (U23; log entry 6). -/
def State.wordValue (s : State) : Word := s.word.getD (Config.unwrittenWord s.draws)

/-- One free value is used up when `v` holds none (log entry 6). -/
def State.countDraw (s : State) (v : Option Word) : State :=
  if v.isNone then { s with draws := s.draws + 1 } else s

/-! ### Output lines (spec/10_state.md R34, R35) -/

/-- Set one line or bus. -/
def State.setLine (s : State) : LineWrite → State
  | .trig v => { s with trig := v }
  | .fqUd v => { s with fqUd := v }
  | .wClk v => { s with wClk := v }
  | .reset v => { s with resetLine := v }
  | .dataLo v => { s with dataLo := v }
  | .dataHi v => { s with dataHi := v }

/-- Append an event to TR (R35). -/
def State.note (s : State) (e : Event) : State := { s with trace := s.trace ++ [e] }

/-- `drive(S, v)`: set the line and record the write, also when the value is the old one (R12, R35). -/
def State.drive (s : State) (w : LineWrite) : State := (s.setLine w).note (.line w)

/-! ### Faults (spec/60_exceptions.md R175 to R178) -/

/-- `raise Fault(code, info)`: the first fault is recorded and marked, a later one changes nothing (R176). Nothing else
changes: faults are precise (R178), and FAULTED = 1 is what halts the block (R177). -/
def State.raise (s : State) (code : FaultCode) (info : BitVec 6) : State :=
  if s.faulted then s
  else { s with faulted := true, faultCode := code.toCode, faultInfo := info }.note (.fault code info)

/-! ### The tick interrupt (spec/42_tick_sequence.md R126 to R134) -/

/-- Taking the tick: BUSY <- 1, SEQ_PC <- 0, TickAccepted (R127). It saves no state (R183). -/
def State.acceptTick (s : State) : State := (s.startSequence tickEntry).note .tickAccepted

/-- The tick is lost (R132). -/
def State.loseTick (s : State) : State := { s with dropped := s.dropped + 1 }.note .tickDropped

/-- The tick is held, or lost when one is held already (R131). -/
def State.holdTick (s : State) : State :=
  if s.pending then s.loseTick else { s with pending := true }.note .tickDelayed

/-- The overrun policy (R131 to R133). -/
def State.overrunPolicy (s : State) : State :=
  match s.cfg.overrun with
  | .delay => s.holdTick
  | .drop => s.loseTick
  | .either =>
    if Config.delaysOverrun s.draws then { s with draws := s.draws + 1 }.holdTick
    else { s with draws := s.draws + 1 }.loseTick

/-- An overrun: counted, then handled by the policy (R130). -/
def State.overrunTick (s : State) : State := { s with overruns := s.overruns + 1 }.overrunPolicy

/-- TICK arrives (R127 to R130). -/
def State.tick (s : State) : State :=
  if s.faulted then s
  else if s.armed = false then s
  else if s.busy then s.overrunTick
  else s.acceptTick

/-! ### The end of a micro-op (spec/41_pin_microops.md R109, R122) -/

/-- The return from a sequence: a pending tick starts at once, else BUSY <- 0; SEQ_PC <- 0 either way (R122, R134, R184). -/
def State.endSequence (s : State) : State :=
  if s.pending then { s with pending := false, seqPc := tickEntry }.note .tickAccepted
  else { s with busy := false, seqPc := 0 }

/-- RetireEnd at slot SEQ_PC (R122). -/
def State.retireEnd (s : State) : State := ((s.noteInit s.seqPc).noteServiced s.seqPc).endSequence

/-- What follows a micro-op's effect: RetireEnd when its END bit is set, else SEQ_PC <- SEQ_PC + 1 (R109). SEQ_PC is a
5-bit register; slot 31 is never passed (R26; log entry 13). -/
def State.retire (s : State) (last : Bool) : State :=
  if last then s.retireEnd else { s with seqPc := s.seqPc + 1 }

/-- MP[SEQ_PC], the micro-op the sequencer runs next (R109). -/
def State.fetch (s : State) : Byte := s.mp[s.seqPc.toNat]'(s.seqPc.isLt)

/-! ### Commands (spec/43_init_and_arm.md R148, R149) -/

/-- The acceptance that every command shares: held while BUSY = 1, ignored while FAULTED = 1 (R148, R149). Neither
changes the block; `Agents.lean` keeps a held command on the port. -/
def State.accept (s : State) (act : State → State) : State :=
  if s.busy then s else if s.faulted then s else act s

/-- A reserved command code: Fault(ILLEGAL_COMMAND, zext_6(CMD)), in any state of ARMED (R157). -/
def State.reservedCommand (s : State) (c : Cmd) : State :=
  s.accept fun t => t.raise .illegalCommand (c.setWidth 6)

/-! ### PWR_RESET (spec/70_reset_and_hazards.md R192, R193) -/

/-- PWR_RESET: every state element to its reset value, the trace emptied, the ghost counters 0 (R40, R192). The
configuration and the micro-program survive (R193); `held` and `inputs` are the host's and the timer's, and `draws`
goes on so that no free value repeats (log entries 6 and 12). -/
def State.pwrReset (s : State) : State :=
  { s with
    rom := [], base := none, cursor := s.cfg.cursorInit, word := none, seqPc := 0,
    busy := false, pending := false, built := false, initd := false, armed := false,
    faulted := false, faultCode := 0, faultInfo := 0,
    trig := false, fqUd := false, wClk := false, resetLine := false, modDisable := false,
    dataLo := 0, dataHi := 0,
    trace := [], serviced := 0, overruns := 0, dropped := 0 }

end Sys2Proof.Machine
end

