-- ==== Sys2Proof/Machine/Build.lean ====
section
/-! DEFINITION. The table builder (spec/40_table_builder.md). All arithmetic is exact; no intermediate is cut (R106). -/

namespace Sys2Proof.Machine

/-- The largest tuning word, 2^32 - 1 (R67). -/
def maxWord : Nat := 4294967295

/-- Whether the fraction `rem / d` of a unit interval rounds up under the cut. -/
def cutUp (c : Cut) (rem d : Nat) : Bool :=
  decide (c.num * d < rem * c.den) || (decide (c.num * d = rem * c.den) && c.inclusive)

/-- The cut of the unit interval that starts at `n`. -/
def cutAt (r : Rounding) (n : Nat) : Cut := (r.exceptions.lookup n).getD r.default

/-- ROUND(n / d) for d > 0: exact on naturals, else floor or ceiling as the interval's cut says (R102). -/
def roundQuotient (r : Rounding) (n d : Nat) : Nat :=
  if n % d = 0 then n / d
  else if cutUp (cutAt r (n / d)) (n % d) d then n / d + 1
  else n / d

/-- base = ROUND(CARRIER_HZ * 2^32 / CLOCK_HZ) (R95). -/
def baseWord (c : Config) : Nat := roundQuotient c.rounding (c.carrierHz * 4294967296) c.clockHz

/-- REF[i], for i in 0..31 (R8). -/
def refSample (c : Config) (i : Nat) : Nat := c.ref.toList.getD i 0

/-- DEV[i] = ROUND(REF[i] * DEV_SCALE) (R97). Read only after R94's check, so DEV_SCALE > 0. -/
def deviation (c : Config) (i : Nat) : Nat :=
  roundQuotient c.rounding (refSample c i * c.devScale.num.toNat) c.devScale.den

/-- E[k] over the integers: base + DEV[k] in the upper half, base - DEV[k-32] in the lower (R98, R99). -/
def entryValue (c : Config) (base k : Nat) : Int :=
  if k < 32 then (base : Int) + deviation c k else (base : Int) - deviation c (k - 32)

/-- The check of entry k: CFG_ENTRY_OVERFLOW in the upper half, CFG_ENTRY_UNDERFLOW in the lower (R98, R99). -/
def entryFault (c : Config) (base k : Nat) : Option (FaultCode × BitVec 6) :=
  if k < 32 then
    if entryValue c base k > maxWord then some (.cfgEntryOverflow, BitVec.ofNat 6 k) else none
  else
    if entryValue c base k < 0 then some (.cfgEntryUnderflow, BitVec.ofNat 6 k) else none

/-- The first failing check of BUILD in R100's order, or none. -/
def buildFault (c : Config) : Option (FaultCode × BitVec 6) :=
  if c.clockHz = 0 ∨ c.devScale.num ≤ 0 then some (.cfgInvalid, 0)
  else if baseWord c > maxWord then some (.cfgBaseRange, 0)
  else (List.range 64).findSome? (entryFault c (baseWord c))

/-- The 64 writes of R101 over `m`, in index order. Irreducible so that no unifier runs them; `Laws/Memory.lean` says
what they leave. -/
@[irreducible] def writeTable (c : Config) (base : Nat) (m : Memory) : Memory :=
  (List.range 64).foldl (fun m k => m.write k (BitVec.ofInt 32 (entryValue c base k))) m

/-- The commit: ROM, BASE and BUILT together (R101). -/
def State.commitTable (s : State) : State :=
  { s with
    rom := writeTable s.cfg (baseWord s.cfg) s.rom
    base := some (BitVec.ofNat 32 (baseWord s.cfg))
    built := true }

/-- The computation of R94 to R101: the first failing check faults and writes nothing else, else the commit. -/
def State.buildTable (s : State) : State :=
  match buildFault s.cfg with
  | some (code, info) => s.raise code info
  | none => s.commitTable

/-- BUILD (R93): after ARM it faults CMD_AFTER_ARM (R156), a second time REBUILD (R105). -/
def execBuild (s : State) : Result :=
  .next (s.accept fun t =>
    if t.armed then t.raise .cmdAfterArm 0
    else if t.built then t.raise .rebuild 0
    else t.buildTable)

end Sys2Proof.Machine
end

