-- ==== Sys2Proof/Machine/DataMicroOps.lean ====
section
/-! DEFINITION. The data micro-ops (spec/41_pin_microops.md section 3). -/

namespace Sys2Proof.Machine

/-- WORD <- MemRead(CURSOR, 4), whole and in one step (R53, R118). -/
def State.loadWord (s : State) : State :=
  { s with word := some s.romAtCursor }.countDraw (s.rom.read s.cursor.toNat)

/-- drive(DATA_LO, src[5:0]) (R119). -/
def State.outLow (s : State) (src : Source) : State :=
  s.drive (.dataLo (lowSix (src.value s.wordValue)))

/-- drive(DATA_HI, src[7:6]) (R120). -/
def State.outHigh (s : State) (src : Source) : State :=
  s.drive (.dataHi (highTwo (src.value s.wordValue)))

/-- CURSOR <- (CURSOR + 1) mod 64 (R121). -/
def State.advanceCursor (s : State) : State := { s with cursor := s.cursor + 1 }

/-- LOAD.W (R118). -/
def execLoadW (last : Bool) (s : State) : Result := .next (s.loadWord.retire last)

/-- OUT.LO BYTEj (R119). -/
def execOutLoByte (j : BitVec 2) (last : Bool) (s : State) : Result :=
  .next (((s.outLow (.byte j)).countDraw s.word).retire last)

/-- OUT.LO CTRL; it does not read WORD (R45, R119). -/
def execOutLoCtrl (last : Bool) (s : State) : Result := .next ((s.outLow .ctrl).retire last)

/-- OUT.HI BYTEj (R120). -/
def execOutHiByte (j : BitVec 2) (last : Bool) (s : State) : Result :=
  .next (((s.outHigh (.byte j)).countDraw s.word).retire last)

/-- OUT.HI CTRL; it does not read WORD (R45, R120). -/
def execOutHiCtrl (last : Bool) (s : State) : Result := .next ((s.outHigh .ctrl).retire last)

/-- CUR.INC (R121). -/
def execCurInc (last : Bool) (s : State) : Result := .next (s.advanceCursor.retire last)

end Sys2Proof.Machine
end

