-- ==== Sys2Proof/Machine/HostCommands.lean ====
section
/-! DEFINITION. The commands NOP, DDS_INIT and ARM (spec/43_init_and_arm.md section 2). -/

namespace Sys2Proof.Machine

/-- NOP: no effect (R150). -/
def execNop (s : State) : Result := .next (s.accept fun t => t)

/-- DDS_INIT: BUSY <- 1, SEQ_PC <- 26; after ARM it faults CMD_AFTER_ARM (R151). Repeating it is allowed (R154). -/
def execDdsInit (s : State) : Result :=
  .next (s.accept fun t => if t.armed then t.raise .cmdAfterArm 0 else t.startSequence initEntry)

/-- ARM: ARMED <- 1; a second ARM faults CMD_AFTER_ARM, and one before BUILD and DDS_INIT faults ARM_BEFORE_INIT (R155). -/
def execArm (s : State) : Result :=
  .next (s.accept fun t =>
    if t.armed then t.raise .cmdAfterArm 0
    else if t.built && t.initd then { t with armed := true }
    else t.raise .armBeforeInit 0)

end Sys2Proof.Machine
end

