-- ==== Sys2Proof/Machine/LineMicroOps.lean ====
section
/-! DEFINITION. The line micro-ops (spec/41_pin_microops.md section 2). -/

namespace Sys2Proof.Machine

/-- TRIG.SET: drive(TRIG, 1) (R111). -/
def execTrigSet (last : Bool) (s : State) : Result := .next ((s.drive (.trig true)).retire last)

/-- TRIG.CLR: drive(TRIG, 0) (R112). -/
def execTrigClr (last : Bool) (s : State) : Result := .next ((s.drive (.trig false)).retire last)

/-- FQUD.TGL: drive(FQ_UD, NOT FQ_UD) (R113). -/
def execFqudTgl (last : Bool) (s : State) : Result := .next ((s.drive (.fqUd (!s.fqUd))).retire last)

/-- FQUD.CLR: drive(FQ_UD, 0) (R114). -/
def execFqudClr (last : Bool) (s : State) : Result := .next ((s.drive (.fqUd false)).retire last)

/-- WCLK.TGL: drive(W_CLK, NOT W_CLK) (R115). -/
def execWclkTgl (last : Bool) (s : State) : Result := .next ((s.drive (.wClk (!s.wClk))).retire last)

/-- RST.SET: drive(RESET, 1) (R116). -/
def execRstSet (last : Bool) (s : State) : Result := .next ((s.drive (.reset true)).retire last)

/-- RST.CLR: drive(RESET, 0) (R117). -/
def execRstClr (last : Bool) (s : State) : Result := .next ((s.drive (.reset false)).retire last)

end Sys2Proof.Machine
end

