-- ==== Sys2Proof/Machine/Dispatch.lean ====
section
/-! DEFINITION. The meaning of every instruction, by name. -/

namespace Sys2Proof.Machine

/-- The effect of one instruction: a micro-op's execute and END (R109), or a command's acceptance and effect (R148 to R157). -/
def exec (i : Instr) (s : State) : Host.Outcome State Fault Refusal :=
  match i with
  | .trigSet e => Sys2Proof.Machine.execTrigSet e s
  | .trigClr e => Sys2Proof.Machine.execTrigClr e s
  | .fqudTgl e => Sys2Proof.Machine.execFqudTgl e s
  | .fqudClr e => Sys2Proof.Machine.execFqudClr e s
  | .wclkTgl e => Sys2Proof.Machine.execWclkTgl e s
  | .rstSet e => Sys2Proof.Machine.execRstSet e s
  | .rstClr e => Sys2Proof.Machine.execRstClr e s
  | .loadW e => Sys2Proof.Machine.execLoadW e s
  | .outLoByte j e => Sys2Proof.Machine.execOutLoByte j e s
  | .outLoCtrl e => Sys2Proof.Machine.execOutLoCtrl e s
  | .outHiByte j e => Sys2Proof.Machine.execOutHiByte j e s
  | .outHiCtrl e => Sys2Proof.Machine.execOutHiCtrl e s
  | .curInc e => Sys2Proof.Machine.execCurInc e s
  | .nop => Sys2Proof.Machine.execNop s
  | .build => Sys2Proof.Machine.execBuild s
  | .ddsInit => Sys2Proof.Machine.execDdsInit s
  | .arm => Sys2Proof.Machine.execArm s

end Sys2Proof.Machine
end

