-- ==== Sys2Proof/Machine/Agents.lean ====
section
/-! DEFINITION. The agents' steps: the sequencer, the host's commands, one event, one whole cycle (spec/00_scope.md R10,
R17; spec/41_pin_microops.md R109; spec/60_exceptions.md R182; spec/70_reset_and_hazards.md R209). -/

namespace Sys2Proof.Machine

/-- Go on with `f` where `o` answers a next state. -/
def andThen (o : Result) (f : State → Result) : Result :=
  match o with
  | .next s => f s
  | .fault r => .fault r
  | .refused r => .refused r

/-- SeqStep (R109). While BUSY = 0 or FAULTED = 1 the sequencer has no step. An illegal word faults before any effect,
with the slot as FAULT_INFO (R123). -/
def seqStep (s : State) : Result :=
  if s.busy && !s.faulted then
    match decodeMicroOp s.fetch with
    | .ok i => exec i s
    | .error _ => .next (s.raise .illegalMicroop (s.seqPc.setWidth 6))
  else .next s

/-- The block acts on, ignores or faults the command code `c` (R84, R148 to R157). -/
def hostCommand (c : Cmd) (s : State) : Result :=
  match decodeCommand c with
  | .ok i => exec i s
  | .error _ => .next (s.reservedCommand c)

/-- A command on the port is not held: BUSY = 0 (R148), or FAULTED = 1, where it is ignored (R149, R177; log entry 11). -/
def State.portOpen (s : State) : Bool := !s.busy || s.faulted

/-- The block takes the oldest held command, if the host keeps one (R148). -/
def takeHeld (s : State) : Result :=
  match s.held with
  | [] => .next s
  | c :: rest => hostCommand c { s with held := rest }

/-- The host presents `c`: acted on when the port is open and no older command waits, else kept on the port (R148). -/
def presentCommand (c : Cmd) (s : State) : Result :=
  if s.portOpen && s.held.isEmpty then hostCommand c s else .next { s with held := s.held ++ [c] }

/-- A TICK sampled in a cycle whose start state is `start` (R182, R209): while ARMED = 0 at the start it is ignored, also
when ARM is accepted in the same cycle; a command that faulted in the same cycle has halted the block. -/
def sampleTick (tick : Bool) (start s : State) : State :=
  if tick && start.armed then s.tick else s

/-- Steps 2 to 5 of a cycle without PWR_RESET (R209): the command on the port acts if BUSY = 0 at the start, the TICK is
sampled, and then the micro-op at SEQ_PC executes if BUSY = 1. -/
def runCycle (tick : Bool) (cmd : Option Cmd) (s : State) : Result :=
  let presented := { s with held := s.held ++ cmd.toList }
  andThen (if s.portOpen then takeHeld presented else .next presented)
    fun t => seqStep (sampleTick tick s t)

/-- One cycle (R209). PWR_RESET ends it: nothing else of the cycle happens (R182). The host still keeps a command it
presented in it, since the block has not acted on it (R146; log entry 12). -/
def cycleStep (pwr tick : Bool) (cmd : Option Cmd) (s : State) : Result :=
  if pwr then .next { s with held := s.held ++ cmd.toList }.pwrReset else runCycle tick cmd s

/-- One step with the event at the front of the schedule, `rest` behind it. RUN is one sequencer step with no input and keeps its
place (R88); `State.skipRun` ends it. -/
def eventStep (e : Input) (rest : List Input) (s : State) : Result :=
  match e with
  | .pwrReset => .next { s with inputs := rest }.pwrReset
  | .tick => .next { s with inputs := rest }.tick
  | .command c => presentCommand c { s with inputs := rest }
  | .seqStep => seqStep { s with inputs := rest }
  | .run => seqStep s
  | .cycle pwr tick cmd => cycleStep pwr tick cmd { s with inputs := rest }

/-- The events that a held command does not precede: PWR_RESET wins over everything (R192), a cycle presents the held command
itself (R209), and RUN, which is over once BUSY = 0, has no place in the order. -/
def Input.comesFirst : Input → Bool
  | .pwrReset => true
  | .cycle _ _ _ => true
  | .run => true
  | _ => false

/-- Whether the entry is RUN. -/
def Input.isRun : Input → Bool
  | .run => true
  | _ => false

/-- RUN ends when BUSY = 0 (R88), or when the block has halted: then the entries RUN at the front are over, in no step and no
cycle of their own (log entry 25). -/
def State.skipRun (s : State) : State :=
  if s.busy && !s.faulted then s else { s with inputs := s.inputs.dropWhile Input.isRun }

/-- One step with every RUN that is over taken away. A held command is acted on in the first step with BUSY = 0 (R148);
otherwise the event at the front of the schedule happens; with an empty schedule the sequencer runs. -/
def frontStep (s : State) : Result :=
  match s.inputs with
  | [] => if s.portOpen && !s.held.isEmpty then takeHeld s else seqStep s
  | e :: rest =>
    if s.portOpen && !s.held.isEmpty && !e.comesFirst then takeHeld s else eventStep e rest s

/-- One step of the machine. -/
def machineStep (s : State) : Result := frontStep s.skipRun

/-- Put the code word where the next step fetches it: a micro-op word in the slot at SEQ_PC, with the sequencer running
and stepping next; a command on an open port as the next event (log entries 1 and 3). -/
def State.placeCodeWord (s : State) : CodeWord → State
  | .microOp m =>
    { s with mp := s.mp.set s.seqPc.toNat m s.seqPc.isLt, busy := true, faulted := false, inputs := .seqStep :: s.inputs }
  | .command c => { s with busy := false, held := [], inputs := .command c :: s.inputs }

end Sys2Proof.Machine
end

