-- ==== Sys2Proof/Machine/Step.lean ====
section
/-! DEFINITION. One step of the machine, and the placing of an instruction where that step fetches it. -/

namespace Sys2Proof.Machine

/-- One step (spec/00_scope.md R13, R17). -/
def step (s : State) : Host.Outcome State Fault Refusal := machineStep s

/-- `s` with the opcode-table word `w` placed where the next step fetches (log entry 1). A number that is no code word
changes nothing. -/
def State.withFetchWord (s : State) (_nbits w : Nat) : State :=
  match tableCodeWord w with
  | some cw => s.placeCodeWord cw
  | none => s

end Sys2Proof.Machine
end

