-- ==== Sys2Proof/Machine/Observer.lean ====
section
/-! DEFINITION. The reference observer of the DDS chip (spec/44_dds_interface.md R168 to R173). It reads only the event
trace and never changes the block (R168, R173), so it is a view of the state. -/

namespace Sys2Proof.Machine

/-- CAPS, ACTIVE and ACTIVE_CTRL (R168), with the two buses as the trace has set them. `none` is Unknown: any value the
chip may hold (U10, U11). -/
structure Observer where
  lo : BitVec 6
  hi : BitVec 2
  caps : List Byte
  active : Option Word
  activeCtrl : Option Byte
  deriving DecidableEq, Repr

/-- At power-on CAPS is empty, the rest Unknown, the buses 0 (R34, R168). -/
def Observer.start : Observer := { lo := 0, hi := 0, caps := [], active := none, activeCtrl := none }

/-- {b0, b1, b2, b3}, b0 the most significant (R170). -/
def wordOfBytes (b0 b1 b2 b3 : Byte) : Word := b0 ++ b1 ++ b2 ++ b3

/-- The commit of a rising FQ_UD: exactly five captured bytes give the control byte and the word, any other count gives
Unknown; CAPS is emptied (R170). -/
def Observer.commit (o : Observer) : Observer :=
  match o.caps with
  | [c, b0, b1, b2, b3] => { o with caps := [], active := some (wordOfBytes b0 b1 b2 b3), activeCtrl := some c }
  | _ => { o with caps := [], active := none, activeCtrl := none }

/-- One event of the trace: capture on a rising W_CLK (R169), commit on a rising FQ_UD and reset on a rising RESET (R170). -/
def Observer.see (o : Observer) : Event → Observer
  | .line (.dataLo v) => { o with lo := v }
  | .line (.dataHi v) => { o with hi := v }
  | .line (.wClk true) => { o with caps := o.caps ++ [busOf o.hi o.lo] }
  | .line (.fqUd true) => o.commit
  | .line (.reset true) => { o with caps := [], active := none, activeCtrl := none }
  | _ => o

/-- What the observer makes of a whole trace. -/
def observe (tr : List Event) : Observer := tr.foldl Observer.see Observer.start

/-- The observer beside the block (R168). -/
def State.observer (s : State) : Observer := observe s.trace

end Sys2Proof.Machine
end

