-- ==== Sys2Proof/Machine/Script.lean ====
section
/-! DEFINITION. Assembler syntax and host scripts (spec/30_encoding.md R86 to R88). -/

namespace Sys2Proof.Machine

/-- The mnemonic of an instruction (R74, R84). -/
def mnemonicText : Instr → String
  | .trigSet _ => "TRIG.SET"
  | .trigClr _ => "TRIG.CLR"
  | .fqudTgl _ => "FQUD.TGL"
  | .fqudClr _ => "FQUD.CLR"
  | .wclkTgl _ => "WCLK.TGL"
  | .rstSet _ => "RST.SET"
  | .rstClr _ => "RST.CLR"
  | .loadW _ => "LOAD.W"
  | .outLoByte _ _ | .outLoCtrl _ => "OUT.LO"
  | .outHiByte _ _ | .outHiCtrl _ => "OUT.HI"
  | .curInc _ => "CUR.INC"
  | .nop => "NOP"
  | .build => "BUILD"
  | .ddsInit => "DDS_INIT"
  | .arm => "ARM"

/-- The operand's name (R75). -/
def byteName (j : BitVec 2) : String :=
  match j.toNat with
  | 0 => "BYTE0"
  | 1 => "BYTE1"
  | 2 => "BYTE2"
  | _ => "BYTE3"

/-- `MNEMONIC [OPERAND] [;END]`, a micro-op's line (R86); for a command, its mnemonic (R84). -/
def assemblyText (i : Instr) : String :=
  mnemonicText i
    ++ (match i with
        | .outLoByte j _ | .outHiByte j _ => " " ++ byteName j
        | .outLoCtrl _ | .outHiCtrl _ => " CTRL"
        | _ => "")
    ++ (if i.endBit = some true then " ;END" else "")

/-- The 38 legal micro-ops. -/
def allMicroOps : List Instr :=
  [false, true].flatMap fun e =>
    [.trigSet e, .trigClr e, .fqudTgl e, .fqudClr e, .wclkTgl e, .rstSet e, .rstClr e, .loadW e,
     .outLoByte 0 e, .outLoByte 1 e, .outLoByte 2 e, .outLoByte 3 e, .outLoCtrl e,
     .outHiByte 0 e, .outHiByte 1 e, .outHiByte 2 e, .outHiByte 3 e, .outHiCtrl e, .curInc e]

/-- The micro-op a line of assembly stands for (R86). -/
def assembleLine (text : String) : Option Instr := allMicroOps.find? fun i => assemblyText i == text

/-- The pseudo-instructions (R87). `outb none` is OUTB CTRL, `outb (some j)` is OUTB BYTEj. -/
inductive Pseudo where
  | pulseFqUd
  | pulseWClk
  | outb (src : Option (BitVec 2))
  | pulseReset
  deriving DecidableEq, Repr

/-- Their expansions (R87). -/
def Pseudo.expand : Pseudo → List Instr
  | .pulseFqUd => [.fqudTgl false, .fqudTgl false]
  | .pulseWClk => [.wclkTgl false, .wclkTgl false]
  | .outb none => [.outLoCtrl false, .outHiCtrl false]
  | .outb (some j) => [.outLoByte j false, .outHiByte j false]
  | .pulseReset => [.rstClr false, .rstSet false, .rstClr false]

/-- The tick sequence as R87 writes it. -/
def tickSequence : List Instr :=
  [.trigSet false] ++ Pseudo.pulseFqUd.expand ++ [.loadW false] ++ (Pseudo.outb none).expand ++ Pseudo.pulseWClk.expand
    ++ ([0, 1, 2, 3].flatMap fun j => (Pseudo.outb (some j)).expand ++ Pseudo.pulseWClk.expand)
    ++ [.curInc false, .trigClr true]

/-- The DDS reset sequence, slots 26 to 29 (R78). -/
def initSequence : List Instr := [.fqudClr false, .rstClr false, .rstSet false, .rstClr true]

/-- A line of a host script (R88). -/
inductive ScriptLine where
  | pwrReset
  | cmdNop
  | cmdBuild
  | cmdDdsInit
  | cmdArm
  /-- `CMD #n`. -/
  | cmdRaw (n : Cmd)
  | tick
  | run
  /-- `WAIT n`: at the cycle level, n cycles with no input. -/
  | wait (n : Nat)
  deriving DecidableEq, Repr

/-- The level at which a script is read (R17). -/
inductive Level where
  /-- Each event is one step and no time is modelled. -/
  | event
  /-- Each line but RUN and WAIT is one sequencer cycle (R208, R209). -/
  | cycle
  deriving DecidableEq, Repr

/-- The code of a command by its mnemonic (R84, R88). -/
def commandCode (i : Instr) : Option Cmd :=
  match encode i with
  | .command c => some c
  | .microOp _ => none

/-- `CMD`: CMD_VALID = 1 with the code, as one event or in one cycle (R88, R208). -/
def presentInput (lv : Level) (c : Cmd) : Input :=
  match lv with
  | .event => .command c
  | .cycle => .cycle false false (some c)

/-- `CMD X` for a command by its mnemonic (R88). -/
def commandInputs (lv : Level) (i : Instr) : List Input := (commandCode i).toList.map (presentInput lv)

/-- PWR_RESET, as one event or in one cycle, which it ends (R88, R209). -/
def resetInput : Level → Input
  | .event => .pwrReset
  | .cycle => .cycle true false none

/-- TICK, as one event or in one cycle, in which an accepted tick also executes slot 0 (R88, R208). -/
def tickInput : Level → Input
  | .event => .tick
  | .cycle => .cycle false true none

/-- One sequencer step with no input: at the cycle level one cycle. DESIGN CHOICE (log entry 27): R88 gives WAIT a meaning at the
cycle level alone, and at the event level it is `n` sequencer steps; safe. -/
def idleInput : Level → Input
  | .event => .seqStep
  | .cycle => .cycle false false none

/-- What a script line makes happen (R88). RUN is the same at both levels: each of its steps is one sequencer
cycle with no input (R208), and it is over once BUSY = 0 (log entry 25). -/
def ScriptLine.toInputs (lv : Level) : ScriptLine → List Input
  | .pwrReset => [resetInput lv]
  | .cmdNop => commandInputs lv .nop
  | .cmdBuild => commandInputs lv .build
  | .cmdDdsInit => commandInputs lv .ddsInit
  | .cmdArm => commandInputs lv .arm
  | .cmdRaw n => [presentInput lv n]
  | .tick => [tickInput lv]
  | .run => [.run]
  | .wait n => List.replicate n (idleInput lv)

/-- The schedule a script stands for at a level. -/
def scriptInputs (lv : Level) (lines : List ScriptLine) : List Input := lines.flatMap (ScriptLine.toInputs lv)

/-- `n` cycles of a timer of period `p` (R9 TICK_PERIOD, R126), no command and no PWR_RESET among them: TICK in the
cycle where the countdown `left` is 0, and then every `p` cycles. A period of 0, to which R9 gives no meaning, acts as 1:
DESIGN CHOICE (log entry 26). -/
def tickCycles (p : Nat) : Nat → Nat → List Input
  | 0, _ => []
  | n + 1, 0 => .cycle false true none :: tickCycles p n (p - 1)
  | n + 1, left + 1 => .cycle false false none :: tickCycles p n left

end Sys2Proof.Machine
end

