-- ==== Sys2Proof/WellFormed.lean ====
section
/-! DEFINITION. What is well-formed: instructions, code words, configurations, micro-programs. -/

namespace Sys2Proof

/-- Every term of `Instr` is well-formed: `j` is a 2-bit selector and `last` one bit, as R73 and R75 have them, so the
types leave nothing to check. -/
def Instr.wellFormed (_ : Instr) : Bool := true

/-- A legal code word: one that decodes (R77, R84). -/
def CodeWord.wellFormed (w : CodeWord) : Bool :=
  match decode w with
  | .ok _ => true
  | .error _ => false

/-- A configuration of R8's types: CLOCK_HZ > 0 and DEV_SCALE > 0. BUILD faults on any other (R94). -/
def Config.wellFormed (c : Config) : Bool := decide (0 < c.clockHz) && decide (0 < c.devScale.num)

/-- The END bit that a micro-program slot of R78 carries: set at slots 25 and 29 alone. -/
def endsAt (slot : Nat) : Bool := slot == 25 || slot == 29

/-- Slot `slot` holds a micro-op with the END bit that R78 gives that slot. -/
def slotWellFormed (p : Vector Byte 32) (slot : Nat) : Bool :=
  match decodeMicroOp (p.toList.getD slot 0) with
  | .ok i => i.endBit == some (endsAt slot)
  | .error _ => false

/-- Every reachable slot, 0 to 29, holds a micro-op with its END bit, so each of the two sequences is a straight line
from its entry to its END slot (R78, R79, R81). -/
def microProgramWellFormed (p : Vector Byte 32) : Bool := (List.range 30).all (slotWellFormed p)

end Sys2Proof
end

