-- ==== Sys2Proof/Safety.lean ====
section
/-! DEFINITION. What counts as a safe run, and the terms that claims use: runs, what END leaves, a recorded fault, and the
invariants of the block. Each is written out from the rule it cites and uses none of the meanings. -/

namespace Sys2Proof.Machine

/-! ### Runs -/

/-- `n` steps, up to the first that answers no next state. `Laws/Runs.lean` shows it to be the host's `Core.run`. -/
def runSteps : Nat → State → Result
  | 0, s => .next s
  | n + 1, s => andThen (step s) (runSteps n)

/-- Power-on of an instance with configuration `c` and the schedule `l` (R192, R194). -/
def State.boot (c : Config) (l : List Input) : State := { State.powerOn c with inputs := l }

/-- `t` is what `n` steps from power-on with the schedule `l` lead to. -/
def Reaches (c : Config) (l : List Input) (n : Nat) (t : State) : Prop :=
  runSteps n (State.boot c l) = .next t

/-- A state of a safe run: the block has not faulted. A faulted state is a failure, never an end that meets a
postcondition (R176, R177). -/
abbrev State.sound (s : State) : Prop := s.faulted = false

/-- Every tick so far was serviced or is held: none was lost (R179). -/
abbrev State.allServiced (s : State) : Prop := s.dropped = 0

/-- What the next step is to the timer: a sequencer cycle with this TICK level, or no cycle. A step of RUN is a cycle with no
input (R88, R208). -/
def State.cycleTick (s : State) : Option Bool :=
  match s.skipRun.inputs with
  | .cycle _ tick _ :: _ => some tick
  | .run :: _ => some false
  | _ => none

/-- In the next `n` steps from `s` a TICK comes in every `p`-th cycle, the first after `left` cycles, and in no other: what
TICK_PERIOD = p admits (R9, R187). Nothing is asked once the schedule is over. DESIGN CHOICE (log entry 26): a period of 0 cycles,
to which R9 gives no meaning, acts as a period of 1; unsafe. And an event-level entry, which takes no time (R17), is not admitted
beside a period in cycles; unsafe. -/
def ticksEvery (p : Nat) : Nat → Nat → State → Bool
  | _, 0, _ => true
  | left, n + 1, s =>
    match s.cycleTick with
    | none => s.skipRun.inputs.isEmpty
    | some tick =>
      (tick == (left == 0)) &&
        match step s with
        | .next t => ticksEvery p (if left = 0 then p - 1 else left - 1) n t
        | _ => true

/-- The ticks of the next `n` steps from `s` come as TICK_PERIOD of the configuration admits (R9, R187), whatever the cycle of the
first one: R9 gives no phase. -/
def State.ticksOnPeriod (s : State) (n : Nat) : Prop :=
  ∀ p, s.cfg.tickPeriod = some p → ∃ left, ticksEvery p left n s = true

end Sys2Proof.Machine

namespace Sys2Proof

open Sys2Proof.Machine

/-- A schedule from power-on that TICK_PERIOD of the configuration admits (R9, R187; log entry 26). -/
def Config.admits (c : Config) (l : List Input) : Prop := ∀ n, (State.boot c l).ticksOnPeriod n

/-- T_CYCLE meets a chip's least pulse width, setup and hold times: each pulse and each setup or hold interval is one
sequencer cycle (R163, R205). -/
def Config.meetsChipTimes (c : Config) (pulse setup hold : Rat) : Bool :=
  decide (pulse ≤ c.tCycle) && decide (setup ≤ c.tCycle) && decide (hold ≤ c.tCycle)

end Sys2Proof

namespace Sys2Proof.Machine

/-- Idle and not halted: BUSY = 0 and FAULTED = 0. -/
abbrev State.ready (s : State) : Prop := s.busy = false ∧ s.faulted = false

/-- The sequencer has a step: BUSY = 1 and FAULTED = 0 (R109). -/
abbrev State.running (s : State) : Prop := s.busy = true ∧ s.faulted = false

/-! ### What rules say an operation leaves -/

/-- The state after a micro-op of `s` whose own effect leaves `u`: SEQ_PC + 1 without END (R109), RetireEnd with it (R122). -/
def retired (s u : State) (last : Bool) : State :=
  if last then
    { u with
      initd := u.initd || decide (s.seqPc.toNat = 29)
      serviced := u.serviced + (if s.seqPc.toNat = 25 then 1 else 0)
      busy := u.busy && s.pending
      pending := false
      seqPc := 0
      trace := u.trace ++ (if s.pending then [.tickAccepted] else []) }
  else { u with seqPc := s.seqPc + 1 }

/-- `s` with one line write recorded in the trace (R35). -/
def State.traced (s : State) (w : LineWrite) : State := { s with trace := s.trace ++ [.line w] }

/-- The state in which a first fault with this code, cause and info has been recorded, all else as before (R176, R178). -/
def State.faultRecorded (s : State) (code : BitVec 4) (cause : FaultCode) (info : BitVec 6) : State :=
  { s with faulted := true, faultCode := code, faultInfo := info, trace := s.trace ++ [.fault cause info] }

/-- The reset values of R40 over the constants, the schedule, the held commands and the draws of `s` (R192, R193). -/
def State.afterPowerReset (s : State) : State :=
  { State.powerOn s.cfg with mp := s.mp, held := s.held, inputs := s.inputs, draws := s.draws }

/-- The bytes that the five W_CLK pulses of a tick present for the word `w`: the control byte, then the word most
significant byte first (R162). -/
def chipBytes (w : Word) : List Byte :=
  [0, BitVec.ofNat 8 (w.toNat / 16777216), BitVec.ofNat 8 (w.toNat / 65536), BitVec.ofNat 8 (w.toNat / 256),
    BitVec.ofNat 8 w.toNat]

/-- The four trace entries that send one byte: low bits, high bits, W_CLK pulse (R136). -/
def byteEvents (b : Byte) : List Event :=
  [.line (.dataLo (BitVec.ofNat 6 b.toNat)), .line (.dataHi (BitVec.ofNat 2 (b.toNat / 64))),
    .line (.wClk true), .line (.wClk false)]

/-- The 24 line writes of one serviced tick that stages `w`, in order (R136). -/
def tickEvents (w : Word) : List Event :=
  [.line (.trig true), .line (.fqUd true), .line (.fqUd false)] ++ (chipBytes w).flatMap byteEvents
    ++ [.line (.trig false)]

/-- The four line writes of a DDS_INIT, in order (R152). -/
def initEvents : List Event :=
  [.line (.fqUd false), .line (.reset false), .line (.reset true), .line (.reset false)]

end Sys2Proof.Machine

namespace Sys2Proof

open Sys2Proof.Machine

/-- base of R95. -/
def Config.baseOf (c : Config) : Nat := roundQuotient c.rounding (c.carrierHz * 4294967296) c.clockHz

/-- DEV[i] of R97, for DEV_SCALE > 0. -/
def Config.devOf (c : Config) (i : Fin 32) : Nat :=
  roundQuotient c.rounding (c.ref[i] * c.devScale.num.toNat) c.devScale.den

/-- The configuration passes every check of BUILD (R94, R96, R98, R99). -/
abbrev Config.buildable (c : Config) : Prop :=
  0 < c.clockHz ∧ 0 < c.devScale ∧ c.baseOf ≤ 4294967295
    ∧ ∀ i : Fin 32, c.baseOf + c.devOf i ≤ 4294967295 ∧ c.devOf i ≤ c.baseOf

end Sys2Proof

namespace Sys2Proof.Machine

/-- BUILD is accepted and is the first one: BUSY, FAULTED, ARMED and BUILT are 0 (R93). -/
abbrev State.awaitsBuild (s : State) : Prop := s.ready ∧ s.armed = false ∧ s.built = false

/-- The same micro-op with the END bit `e`; a command has none (R76). -/
def withEnd (e : Bool) : Instr → Instr
  | .trigSet _ => .trigSet e
  | .trigClr _ => .trigClr e
  | .fqudTgl _ => .fqudTgl e
  | .fqudClr _ => .fqudClr e
  | .wclkTgl _ => .wclkTgl e
  | .rstSet _ => .rstSet e
  | .rstClr _ => .rstClr e
  | .loadW _ => .loadW e
  | .outLoByte j _ => .outLoByte j e
  | .outLoCtrl _ => .outLoCtrl e
  | .outHiByte j _ => .outHiByte j e
  | .outHiCtrl _ => .outHiCtrl e
  | .curInc _ => .curInc e
  | .nop => .nop
  | .build => .build
  | .ddsInit => .ddsInit
  | .arm => .arm

/-- An overrun tick held in PENDING (R130, R131). -/
def State.tickHeld (s : State) : State :=
  { s with overruns := s.overruns + 1, pending := true, trace := s.trace ++ [.tickDelayed] }

/-- An overrun tick that is lost (R130, R132). -/
def State.tickLost (s : State) : State :=
  { s with overruns := s.overruns + 1, dropped := s.dropped + 1, trace := s.trace ++ [.tickDropped] }

/-- An accepted tick (R127). -/
def State.tickTaken (s : State) : State :=
  { s with busy := true, seqPc := 0, trace := s.trace ++ [.tickAccepted] }

/-- `n` times: one TICK, then the sequencer runs until BUSY = 0 (R88). -/
def tickThenRun : Nat → List Input
  | 0 => []
  | n + 1 => .tick :: .run :: tickThenRun n

/-! ### Invariants of the block -/

/-- The table: ROM in its canonical form; once BUILT = 1 every entry and BASE hold a value and the halves are symmetric about
BASE (R21, R22, R29, R103), and before it none holds one. -/
abbrev TableInv (s : State) : Prop :=
  s.rom.wf = true
    ∧ (s.built = true → s.base.isSome = true ∧ (∀ k < 64, (s.rom.read k).isSome = true)
        ∧ ∀ i < 32, ((s.rom.read i).getD 0).toNat + ((s.rom.read (i + 32)).getD 0).toNat = 2 * (s.base.getD 0).toNat)
    ∧ (s.built = false → s.rom = [] ∧ s.base = none)

/-- The flags: ARMED only after BUILT and INITD (R155); PENDING only while BUSY and ARMED (R28); SEQ_PC = 0 while idle
(R26); nothing serviced before ARMED (R128); MOD_DISABLE = 0 (R166). -/
abbrev FlagInv (s : State) : Prop :=
  (s.armed = true → s.built = true ∧ s.initd = true)
    ∧ (s.pending = true → s.busy = true ∧ s.armed = true)
    ∧ (s.busy = false → s.seqPc = 0)
    ∧ s.modDisable = false

/-- The fault registers: only codes 0 to 9, and 0 exactly while no fault is recorded (R32, R175). -/
abbrev FaultInv (s : State) : Prop :=
  s.faultCode.toNat ≤ 9 ∧ (s.faulted = false ↔ s.faultCode = 0) ∧ (s.faulted = false → s.faultInfo = 0)

/-- The three together. They hold whatever the micro-program is. -/
abbrev ControlInv (s : State) : Prop := TableInv s ∧ FlagInv s ∧ FaultInv s

/-- A tick sequence is running: BUSY = 1 and SEQ_PC in 0..25 (R79). -/
abbrev State.inTick (s : State) : Prop := s.busy = true ∧ s.seqPc.toNat ≤ 25

/-- The CUR.INC micro-ops retired since power-on: SERVICED, or one more between slots 24 and 25 (R42). -/
def State.advances (s : State) : Nat := s.serviced + (if s.busy = true ∧ s.seqPc.toNat = 25 then 1 else 0)

/-- The LOAD.W micro-ops retired since power-on. -/
def State.loads (s : State) : Nat := s.serviced + (if s.inTick ∧ 4 ≤ s.seqPc.toNat then 1 else 0)

/-- The rising FQ_UD pulses since power-on. -/
def State.updates (s : State) : Nat := s.serviced + (if s.inTick ∧ 2 ≤ s.seqPc.toNat then 1 else 0)

/-- The lines as slot `pc` finds them: TRIG high from slot 1 to 25, FQ_UD at slot 2, W_CLK at the second slot of each
pulse, RESET at slot 29 (R110, R161, R164, R165, R167). -/
abbrev LinesAt (s : State) (pc : Nat) : Prop :=
  s.trig = decide (1 ≤ pc ∧ pc ≤ 25) ∧ s.fqUd = decide (pc = 2)
    ∧ s.wClk = decide (pc = 7 ∨ pc = 11 ∨ pc = 15 ∨ pc = 19 ∨ pc = 23) ∧ s.resetLine = decide (pc = 29)

/-- The sequences: the micro-program is R78's; the lines are low while idle (R41) and as the slot has them while a sequence
runs; a running sequence has not faulted and stays in slots 0 to 29, a tick sequence only while ARMED and the DDS reset
sequence only before (R26, R127, R151); CURSOR counts CUR.INC (R42); WORD is the ROM entry of the last LOAD.W (R66, R141). -/
abbrev SequenceInv (s : State) : Prop :=
  s.mp = microProgram
    ∧ (s.busy = false → LinesAt s 0)
    ∧ (s.busy = true → s.faulted = false ∧ s.seqPc.toNat ≤ 29 ∧ LinesAt s s.seqPc.toNat
        ∧ (s.armed = true ↔ s.seqPc.toNat ≤ 25))
    ∧ (s.armed = false → s.serviced = 0)
    ∧ s.cursor.toNat = (s.cfg.cursorInit.toNat + s.advances) % 64
    ∧ (0 < s.loads → s.word = s.rom.read ((s.cfg.cursorInit.toNat + s.loads - 1) % 64))

/-- The invariant of the block that runs R78's micro-program. -/
abbrev BlockInv (s : State) : Prop := ControlInv s ∧ SequenceInv s

/-- The two buses inside a tick sequence: from slot 5 on DATA_LO holds the low bits of the byte its last OUT.LO sent, from
slot 6 on DATA_HI the high bits of the byte its last OUT.HI sent; so BUS is byte p during W_CLK pulse p (R161, R162). -/
abbrev BusInv (s : State) : Prop :=
  (s.inTick → 5 ≤ s.seqPc.toNat →
      s.dataLo = BitVec.ofNat 6 ((chipBytes (s.word.getD 0)).getD (min ((s.seqPc.toNat - 5) / 4) 4) 0).toNat)
    ∧ (s.inTick → 6 ≤ s.seqPc.toNat →
      s.dataHi = BitVec.ofNat 2 (((chipBytes (s.word.getD 0)).getD ((s.seqPc.toNat - 6) / 4) 0).toNat / 64))

/-- What the observer holds: the block's buses; in CAPS the bytes captured since the last rising FQ_UD (R162, R169); in
ACTIVE the word staged by the tick before the last commit, Unknown up to the first (R170, R171); control byte 0 (R172). -/
abbrev ObserverInv (s : State) : Prop :=
  s.observer.lo = s.dataLo ∧ s.observer.hi = s.dataHi
    ∧ s.observer.caps =
        (if s.inTick ∧ 2 ≤ s.seqPc.toNat then (chipBytes (s.word.getD 0)).take ((s.seqPc.toNat - 3) / 4)
         else if s.serviced = 0 then [] else chipBytes (s.word.getD 0))
    ∧ s.observer.active =
        (if s.updates ≤ 1 then none else s.rom.read ((s.cfg.cursorInit.toNat + s.updates - 2) % 64))
    ∧ s.observer.activeCtrl = (if s.updates ≤ 1 then none else some 0)

/-- The invariant of the block together with its chip observer. -/
abbrev StreamInv (s : State) : Prop := BlockInv s ∧ BusInv s ∧ ObserverInv s

end Sys2Proof.Machine
end

