-- ==== Sys2Proof/Certificates/Slice0/Obligations.lean ====
section
/-! DEFINITION. The statements for the provers. Each docstring names the rule of spec/ it formalises, or the log entry of a
choice of the model. -/

open Sys2Proof Sys2Proof.Machine

/-! ### Encoding -/

/-- Decoding the code word of any instruction gives the instruction back, with every operand and END value
(spec/30_encoding.md R73 to R76, R82, R84, R86). -/
def Obligations.DecodeInvertsEncode : Prop := ∀ i : Instr, decode (encode i) = .ok i

/-- Every legal code word is the code word of the instruction it decodes to, so no legal word is read as another
instruction's (R77, R82, R84). -/
def Obligations.EncodeInvertsDecode : Prop := ∀ (w : CodeWord) (i : Instr), decode w = .ok i → encode i = w

/-- R77: exactly these micro-op words are illegal. -/
def Obligations.IllegalMicroOpWords : Prop :=
  ∀ m : Byte, (∃ e, decodeMicroOp m = .error e) ↔
    (m.toNat / 16 = 0 ∨ 12 ≤ m.toNat / 16)
      ∨ ((m.toNat / 16 = 9 ∨ m.toNat / 16 = 10) ∧ 5 ≤ m.toNat % 8)
      ∨ (m.toNat / 16 ≠ 9 ∧ m.toNat / 16 ≠ 10 ∧ m.toNat % 8 ≠ 0)

/-- Words written out from R74, R75, R78, R84 and R86 decode to the instructions they stand for; and the constant
micro-program is R87's tick sequence in slots 0 to 25, R78's DDS reset sequence in slots 26 to 29, and two words 0x00. -/
def Obligations.WrittenWordsDecode : Prop :=
  decodeMicroOp 0x10 = .ok (.trigSet false) ∧ decodeMicroOp 0x28 = .ok (.trigClr true)
    ∧ decodeMicroOp 0x30 = .ok (.fqudTgl false) ∧ decodeMicroOp 0x78 = .ok (.rstClr true)
    ∧ decodeMicroOp 0x80 = .ok (.loadW false) ∧ decodeMicroOp 0x93 = .ok (.outLoByte 3 false)
    ∧ decodeMicroOp 0x9C = .ok (.outLoCtrl true) ∧ decodeMicroOp 0xA2 = .ok (.outHiByte 2 false)
    ∧ decodeMicroOp 0xA4 = .ok (.outHiCtrl false) ∧ decodeMicroOp 0xB0 = .ok (.curInc false)
    ∧ decodeCommand 0b000 = .ok .nop ∧ decodeCommand 0b001 = .ok .build
    ∧ decodeCommand 0b010 = .ok .ddsInit ∧ decodeCommand 0b011 = .ok .arm
    ∧ (tickSequence ++ initSequence).map encode ++ [.microOp 0x00, .microOp 0x00] = microProgram.toList.map CodeWord.microOp

/-- R68: byte_j is the j-th byte from the most significant end, and it is lane 3 - j. R70 and R71: with the two fields of a
byte on the two buses, BUS is the byte, and each port shows its field in its place. -/
def Obligations.TransferBytesOnBus : Prop :=
  (∀ (w : Word) (j : BitVec 2),
    (byteOf w j).toNat = w.toNat / 2 ^ (8 * (3 - j.toNat)) % 256 ∧ byteOf w j = laneOf w (3 - j))
    ∧ ∀ (s : State) (b : Byte), s.dataLo = b.extractLsb 5 0 → s.dataHi = b.extractLsb 7 6 →
    s.bus = b ∧ s.dataLoPort = b &&& 0x3F ∧ s.dataHiPort = b &&& 0xC0

/-! ### Line micro-ops: each next state in full, for both values of END -/

/-- TRIG.SET drives TRIG to 1, whatever it was, and changes nothing else but SEQ_PC or what END writes (R111). -/
def Obligations.TrigSetDrivesOne : Prop :=
  ∀ (s : State) (last : Bool),
    encode (.trigSet last) = .microOp (if last then 0x18 else 0x10)
      ∧ exec (.trigSet last) s = .next (retired s { s.traced (.trig true) with trig := true } last)

/-- TRIG.CLR drives TRIG to 0; slot 25 holds it with END (R112). -/
def Obligations.TrigClrDrivesZero : Prop :=
  microProgram[25] = 0x28 ∧ ∀ (s : State) (last : Bool),
    encode (.trigClr last) = .microOp (if last then 0x28 else 0x20)
      ∧ exec (.trigClr last) s = .next (retired s { s.traced (.trig false) with trig := false } last)

/-- FQUD.TGL inverts FQ_UD (R113). -/
def Obligations.FqudTglInverts : Prop :=
  ∀ (s : State) (last : Bool),
    encode (.fqudTgl last) = .microOp (if last then 0x38 else 0x30)
      ∧ exec (.fqudTgl last) s = .next (retired s { s.traced (.fqUd (!s.fqUd)) with fqUd := !s.fqUd } last)

/-- FQUD.CLR drives FQ_UD to 0; it stands at slot 26 (R114). -/
def Obligations.FqudClrDrivesZero : Prop :=
  microProgram[26] = 0x40 ∧ ∀ (s : State) (last : Bool),
    encode (.fqudClr last) = .microOp (if last then 0x48 else 0x40)
      ∧ exec (.fqudClr last) s = .next (retired s { s.traced (.fqUd false) with fqUd := false } last)

/-- WCLK.TGL inverts W_CLK; it stands at the ten slots of R115. -/
def Obligations.WclkTglInverts : Prop :=
  (∀ k : Fin 32, microProgram[k] = 0x50 ↔ k.val ∈ [6, 7, 10, 11, 14, 15, 18, 19, 22, 23])
    ∧ ∀ (s : State) (last : Bool),
      encode (.wclkTgl last) = .microOp (if last then 0x58 else 0x50)
        ∧ exec (.wclkTgl last) s = .next (retired s { s.traced (.wClk (!s.wClk)) with wClk := !s.wClk } last)

/-- RST.SET drives RESET to 1; it stands at slot 28 (R116). -/
def Obligations.RstSetDrivesOne : Prop :=
  microProgram[28] = 0x60 ∧ ∀ (s : State) (last : Bool),
    encode (.rstSet last) = .microOp (if last then 0x68 else 0x60)
      ∧ exec (.rstSet last) s = .next (retired s { s.traced (.reset true) with resetLine := true } last)

/-- RST.CLR drives RESET to 0; slot 27 holds it, and slot 29 with END (R117). -/
def Obligations.RstClrDrivesZero : Prop :=
  microProgram[27] = 0x70 ∧ microProgram[29] = 0x78 ∧ ∀ (s : State) (last : Bool),
    encode (.rstClr last) = .microOp (if last then 0x78 else 0x70)
      ∧ exec (.rstClr last) s = .next (retired s { s.traced (.reset false) with resetLine := false } last)

/-! ### Data micro-ops -/

/-- LOAD.W copies the ROM entry at CURSOR into WORD and changes nothing else (R118, R53). -/
def Obligations.LoadWordCopiesEntry : Prop :=
  ∀ (s : State) (last : Bool) (w : Word), s.rom.read s.cursor.toNat = some w →
    exec (.loadW last) s = .next (retired s { s with word := some w } last)

/-- OUT.LO drives DATA_LO to bits 5:0 of byte_j(WORD), or to 0 for CTRL whatever WORD is; DATA_HI stays (R119). -/
def Obligations.OutLowDrivesSixBits : Prop :=
  (∀ (s : State) (last : Bool),
    exec (.outLoCtrl last) s = .next (retired s { s.traced (.dataLo 0) with dataLo := 0 } last))
    ∧ ∀ (s : State) (last : Bool) (j : BitVec 2) (w : Word) (v : BitVec 6), s.word = some w →
      v.toNat = w.toNat / 2 ^ (8 * (3 - j.toNat)) % 64 →
      exec (.outLoByte j last) s = .next (retired s { s.traced (.dataLo v) with dataLo := v } last)

/-- OUT.HI drives DATA_HI to bits 7:6 of byte_j(WORD), or to 0 for CTRL whatever WORD is; DATA_LO stays (R120). -/
def Obligations.OutHighDrivesTwoBits : Prop :=
  (∀ (s : State) (last : Bool),
    exec (.outHiCtrl last) s = .next (retired s { s.traced (.dataHi 0) with dataHi := 0 } last))
    ∧ ∀ (s : State) (last : Bool) (j : BitVec 2) (w : Word) (v : BitVec 2), s.word = some w →
      v.toNat = w.toNat / 2 ^ (8 * (3 - j.toNat)) % 256 / 64 →
      exec (.outHiByte j last) s = .next (retired s { s.traced (.dataHi v) with dataHi := v } last)

/-- THE MODEL'S CHOICE (log entry 6; R24 and U23 let a model fault): a read of a ROM entry or of WORD that holds no value
still runs, the register or bus that takes it holds a free value, and nothing else changes but the count of draws. -/
def Obligations.ReadsWithoutValueRun : Prop :=
  ∀ (s : State) (last : Bool) (j : BitVec 2),
    (s.rom.read s.cursor.toNat = none →
      ∃ v, exec (.loadW last) s = .next (retired s { s with word := some v, draws := s.draws + 1 } last))
      ∧ (s.word = none →
        (∃ v, exec (.outLoByte j last) s
            = .next (retired s { s.traced (.dataLo v) with dataLo := v, draws := s.draws + 1 } last))
          ∧ ∃ v, exec (.outHiByte j last) s
            = .next (retired s { s.traced (.dataHi v) with dataHi := v, draws := s.draws + 1 } last))

/-- CUR.INC adds 1 to CURSOR modulo 64 and writes no line; it stands at slot 24 (R121). -/
def Obligations.CursorAdvancesModulo64 : Prop :=
  microProgram[24] = 0xB0 ∧ ∀ (s : State) (last : Bool) (c : BitVec 6), c.toNat = (s.cursor.toNat + 1) % 64 →
    encode (.curInc last) = .microOp (if last then 0xB8 else 0xB0)
      ∧ exec (.curInc last) s = .next (retired s { s with cursor := c } last)

/-- RetireEnd (R122): a micro-op with END does what it does without it, and then, at the slot it stood at, INITD is set at
slot 29, SERVICED counts at slot 25, and a pending tick starts or BUSY falls; SEQ_PC is 0 after it. PENDING = 1 only in a
tick sequence, so at slot 25 of the two END slots. -/
def Obligations.EndRetiresSequence : Prop :=
  (∀ s : State, BlockInv s → s.pending = true → s.busy = true ∧ s.seqPc.toNat ≤ 25)
  ∧ ∀ (i : Instr) (s u : State), i.isMicroOp = true → exec (withEnd false i) s = .next u →
    exec (withEnd true i) s = .next
      { u with
        initd := u.initd || s.seqPc == 29
        serviced := if s.seqPc = 25 then u.serviced + 1 else u.serviced
        pending := false
        busy := if u.pending = true then u.busy else false
        seqPc := 0
        trace := if u.pending = true then u.trace ++ [.tickAccepted] else u.trace }

/-- A micro-op without END completes, adds 1 to SEQ_PC, and writes no flag, no fault register, no table, no ghost counter and
no constant (R43, R109, R124). -/
def Obligations.MicroOpWithoutEndKeepsFlags : Prop :=
  ∀ (i : Instr) (s : State), i.endBit = some false →
    ∃ t, exec i s = .next t ∧ t.seqPc = s.seqPc + 1
      ∧ t.busy = s.busy ∧ t.pending = s.pending ∧ t.built = s.built ∧ t.initd = s.initd ∧ t.armed = s.armed
      ∧ t.faulted = s.faulted ∧ t.faultCode = s.faultCode ∧ t.faultInfo = s.faultInfo
      ∧ t.rom = s.rom ∧ t.base = s.base ∧ t.modDisable = s.modDisable
      ∧ t.serviced = s.serviced ∧ t.overruns = s.overruns ∧ t.dropped = s.dropped
      ∧ t.cfg = s.cfg ∧ t.mp = s.mp ∧ t.held = s.held ∧ t.inputs = s.inputs

/-! ### Commands -/

/-- NOP changes nothing, in any state (R150). -/
def Obligations.NopHasNoEffect : Prop := encode .nop = .command 0b000 ∧ ∀ s : State, exec .nop s = .next s

/-- BUILD from a configuration that passes every check writes all 64 entries, BASE and BUILT in one step and changes nothing
else (R93, R95, R97 to R99, R101). -/
def Obligations.BuildWritesTable : Prop :=
  ∀ s : State, s.awaitsBuild → s.cfg.buildable →
    ∃ t, exec .build s = .next t
      ∧ t = { s with rom := t.rom, base := some (BitVec.ofNat 32 s.cfg.baseOf), built := true }
      ∧ (∀ i : Fin 32, t.rom.read i = some (BitVec.ofNat 32 (s.cfg.baseOf + s.cfg.devOf i))
          ∧ t.rom.read (i + 32) = some (BitVec.ofNat 32 (s.cfg.baseOf - s.cfg.devOf i)))
      ∧ ∀ k : Nat, 64 ≤ k → t.rom.read k = s.rom.read k

/-- BUILD's first failing check, in R100's order, records its fault and writes nothing else (R94, R96, R98 to R100). -/
def Obligations.BuildReportsFirstFailure : Prop :=
  ∀ s : State, s.awaitsBuild →
    ((s.cfg.clockHz = 0 ∨ s.cfg.devScale ≤ 0) → exec .build s = .next (s.faultRecorded 1 .cfgInvalid 0))
      ∧ (0 < s.cfg.clockHz → 0 < s.cfg.devScale →
        (4294967295 < s.cfg.baseOf → exec .build s = .next (s.faultRecorded 2 .cfgBaseRange 0))
        ∧ (s.cfg.baseOf ≤ 4294967295 →
          (∀ k : Fin 32, 4294967295 < s.cfg.baseOf + s.cfg.devOf k →
            (∀ j : Fin 32, j < k → s.cfg.baseOf + s.cfg.devOf j ≤ 4294967295) →
            exec .build s = .next (s.faultRecorded 3 .cfgEntryOverflow (BitVec.ofNat 6 k)))
          ∧ ((∀ j : Fin 32, s.cfg.baseOf + s.cfg.devOf j ≤ 4294967295) →
            ∀ k : Fin 32, s.cfg.baseOf < s.cfg.devOf k → (∀ j : Fin 32, j < k → s.cfg.devOf j ≤ s.cfg.baseOf) →
            exec .build s = .next (s.faultRecorded 4 .cfgEntryUnderflow (BitVec.ofNat 6 (k + 32))))))

/-- R105: a second BUILD before ARM faults REBUILD and leaves ROM and BASE as they were. -/
def Obligations.RebuildFaults : Prop :=
  ∀ s : State, s.ready → s.built = true → s.armed = false → exec .build s = .next (s.faultRecorded 5 .rebuild 0)

/-- R103: after a BUILD that built the table, ROM[i] + ROM[i+32] = 2 * BASE for every i. -/
def Obligations.BuiltTableIsSymmetric : Prop :=
  ∀ s t : State, s.built = false → exec .build s = .next t → t.built = true → ∀ i < 32,
    ∃ a b c, t.rom.read i = some a ∧ t.rom.read (i + 32) = some b ∧ t.base = some c
      ∧ a.toNat + b.toNat = 2 * c.toNat

/-- R108: the source's worked example, for every REF whose other samples let BUILD pass (REF[i] * 5/2 rounds to base at most). -/
def Obligations.WorkedExampleTable : Prop :=
  ∀ s : State, s.awaitsBuild → s.cfg.carrierHz = 20000000 → s.cfg.clockHz = 125000000 → s.cfg.devScale = 5 / 2 →
    s.cfg.rounding = Rounding.halfUp → s.cfg.ref[0] = 0 → s.cfg.ref[8] = 24296 → (∀ i : Fin 32, s.cfg.ref[i] ≤ 274877906) →
    s.cfg.baseOf = 687194767 ∧ s.cfg.devOf 0 = 0 ∧ s.cfg.devOf 8 = 60740 ∧
    ∃ t, exec .build s = .next t ∧ t.built = true ∧ t.base = some 0x28F5C28F
      ∧ t.rom.read 0 = some 687194767 ∧ t.rom.read 32 = some 687194767
      ∧ t.rom.read 8 = some 0x28F6AFD3 ∧ t.rom.read 40 = some 0x28F4D54B

/-- ROUND, for every value of the parameter, is floor or ceiling, exact on naturals and monotone; its default is
floor(x + 1/2) (R102). -/
def Obligations.RoundIsAdmissible : Prop :=
  (∀ (r : Rounding) (n d : Nat), 0 < d →
    (roundQuotient r n d = n / d ∨ roundQuotient r n d = (n + d - 1) / d)
      ∧ roundQuotient r (n * d) d = n
      ∧ ∀ n' d' : Nat, 0 < d' → n * d' ≤ n' * d → roundQuotient r n d ≤ roundQuotient r n' d')
    ∧ ∀ n d : Nat, 0 < d → roundQuotient Rounding.halfUp n d = (2 * n + d) / (2 * d)

/-- DDS_INIT, accepted, sets BUSY and SEQ_PC = 26 and changes nothing else; a repeated one before ARM likewise (R151, R154). -/
def Obligations.DdsInitStartsSequence : Prop :=
  ∀ s : State, s.ready → s.armed = false → exec .ddsInit s = .next { s with busy := true, seqPc := 26 }

/-- ARM, accepted, sets ARMED after BUILD and DDS_INIT, and else faults ARM_BEFORE_INIT; nothing else changes (R155). -/
def Obligations.ArmNeedsBuiltAndInitd : Prop :=
  ∀ s : State, s.ready → s.armed = false →
    (s.built = true → s.initd = true → exec .arm s = .next { s with armed := true })
      ∧ ((s.built = false ∨ s.initd = false) → exec .arm s = .next (s.faultRecorded 6 .armBeforeInit 0))

/-- R156: after ARM, the commands BUILD, DDS_INIT and ARM fault CMD_AFTER_ARM once BUSY = 0. -/
def Obligations.CommandsAfterArmFault : Prop :=
  ∀ (s : State) (i : Instr), s.ready → s.armed = true → i = .build ∨ i = .ddsInit ∨ i = .arm →
    exec i s = .next (s.faultRecorded 7 .cmdAfterArm 0)

/-- R157: a reserved command code faults ILLEGAL_COMMAND with the code as FAULT_INFO, in any state of ARMED. -/
def Obligations.ReservedCommandFaults : Prop :=
  ∀ (s : State) (c : Cmd) (rest : List Input), s.ready → s.held = [] → s.inputs = .command c :: rest → 4 ≤ c.toNat →
    step s = .next ({ s with inputs := rest }.faultRecorded 8 .illegalCommand (BitVec.ofNat 6 c.toNat))

/-- While BUSY = 1 no command acts: a command's meaning changes nothing, a presented code stays on the port, and a held one acts
in the first step with BUSY = 0 (R148); a held reserved code faults there (R157). THE MODEL'S CHOICE: a queue of held commands,
the oldest first the oldest first (log entry 12), and the held command going before a TICK or any other front entry but PWR_RESET and a cycle
(log entry 16; IdleCycleOrder has the cycle; StepRunsDecodedInstruction has a RUN that is over). -/
def Obligations.CommandHeldWhileBusy : Prop :=
  (∀ (i : Instr) (s : State), i.isMicroOp = false → s.busy = true → exec i s = .next s)
    ∧ (∀ (s : State) (c : Cmd) (rest : List Input), s.running → s.inputs = .command c :: rest →
      step s = .next { s with inputs := rest, held := s.held ++ [c] })
    ∧ ∀ (s : State) (c : Cmd) (h : List Cmd), s.ready → s.held = c :: h →
      (∀ e rest, s.inputs = e :: rest → e.comesFirst = false) →
      (∀ i, decodeCommand c = .ok i → step s = exec i { s with held := h })
        ∧ (4 ≤ c.toNat → step s = .next ({ s with held := h }.faultRecorded 8 .illegalCommand (BitVec.ofNat 6 c.toNat)))

/-- R129 and R149: while FAULTED = 1 no TICK, no command and no sequencer step changes the block; only PWR_RESET does. -/
def Obligations.FaultedBlockHalts : Prop :=
  ∀ s : State, s.faulted = true → (∀ rest, s.inputs.dropWhile Input.isRun ≠ .pwrReset :: rest) →
    (∀ tick cmd rest, s.inputs.dropWhile Input.isRun ≠ .cycle true tick cmd :: rest) →
    ∃ l h, step s = .next { s with inputs := l, held := h }

/-! ### The tick -/

/-- A TICK with FAULTED = 0, ARMED = 1 and BUSY = 0 is accepted: BUSY, SEQ_PC = 0, TickAccepted, and nothing else (R127). -/
def Obligations.TickAcceptedWhenIdle : Prop :=
  ∀ (s : State) (rest : List Input), s.ready → s.armed = true → s.held = [] → s.inputs = .tick :: rest →
    step s = .next { s with inputs := rest }.tickTaken

/-- R128 and R129: a TICK while ARMED = 0 or FAULTED = 1 has no effect and records nothing. -/
def Obligations.TickIgnoredBeforeArmOrAfterFault : Prop :=
  ∀ (s : State) (rest : List Input), s.armed = false ∨ s.faulted = true → s.held = [] ∨ s.running →
    s.inputs = .tick :: rest → step s = .next { s with inputs := rest }

/-- An overrun under Delay is held, or lost when one is held; under Drop it is lost; the running sequence is not touched
(R130 to R132). -/
def Obligations.OverrunFollowsPolicy : Prop :=
  ∀ (s : State) (rest : List Input), s.running → s.armed = true → s.inputs = .tick :: rest →
    (s.cfg.overrun = .delay → s.pending = false → step s = .next { s with inputs := rest }.tickHeld)
      ∧ (s.cfg.overrun = .delay → s.pending = true → step s = .next { s with inputs := rest }.tickLost)
      ∧ (s.cfg.overrun = .drop → step s = .next { s with inputs := rest }.tickLost)

/-- Under Either an overrun is handled as under Delay or as under Drop (R133). THE MODEL'S CHOICE (log entry 7): the fresh draw is
counted, so `draws` grows by 1 in both cases. -/
def Obligations.OverrunEitherIsOneOfTwo : Prop :=
  ∀ (s : State) (rest : List Input), s.running → s.armed = true → s.inputs = .tick :: rest → s.cfg.overrun = .either →
    (s.pending = false ∧ step s = .next { s with inputs := rest, draws := s.draws + 1 }.tickHeld)
      ∨ step s = .next { s with inputs := rest, draws := s.draws + 1 }.tickLost

/-! ### Reset and the step -/

/-- The reset values of R40, at power-on and after PWR_RESET in any state, for every configuration; and `State.reset` is at the
default CURSOR_INIT, 0. -/
def Obligations.ResetValues : Prop :=
  (∀ c : Config, ∀ s : State, s = State.powerOn c ∨ (∃ u : State, u.cfg = c ∧ s = u.pwrReset) →
    s.rom = [] ∧ s.base = none ∧ s.word = none ∧ s.cursor = c.cursorInit ∧ s.seqPc = 0
      ∧ s.busy = false ∧ s.pending = false ∧ s.built = false ∧ s.initd = false ∧ s.armed = false ∧ s.faulted = false
      ∧ s.faultCode = 0 ∧ s.faultInfo = 0 ∧ s.trig = false ∧ s.fqUd = false ∧ s.wClk = false ∧ s.resetLine = false
      ∧ s.modDisable = false ∧ s.dataLo = 0 ∧ s.dataHi = 0
      ∧ s.trace = [] ∧ s.serviced = 0 ∧ s.overruns = 0 ∧ s.dropped = 0)
    ∧ State.reset.cursor = 0

/-- PWR_RESET, as an event in any state and as the level of a cycle whatever else the cycle brings, sets every state element to
its reset value; the configuration and the micro-program survive (R192, R193). THE MODEL'S CHOICE: held commands survive it and a
command presented in its cycle stays on the port (log entry 12), `draws` goes on (log entry 6), and so does the schedule (log
entry 1). -/
def Obligations.PowerResetRestoresResetValues : Prop :=
  ∀ (s : State) (rest : List Input),
    (s.inputs = .pwrReset :: rest → step s = .next { s with inputs := rest }.afterPowerReset)
      ∧ ∀ (tick : Bool) (cmd : Option Cmd), s.inputs = .cycle true tick cmd :: rest →
        step s = .next { s with inputs := rest, held := s.held ++ cmd.toList }.afterPowerReset

/-- A step runs the decoded instruction: the micro-op at SEQ_PC while the sequencer runs (R17, R109), and the command on the open
port (R148); while the block is idle the sequencer has no step (R109, R191). RUN lasts until BUSY = 0 (R88). THE MODEL'S CHOICE:
an empty schedule lets the sequencer run (log entry 1), and a RUN that is over takes no step of its own (log entry 25). -/
def Obligations.StepRunsDecodedInstruction : Prop :=
  (∀ (s : State) (i : Instr) (rest : List Input), s.running → decodeMicroOp s.fetch = .ok i →
    (s.inputs = [] → step s = exec i s)
      ∧ (s.inputs = .run :: rest → step s = exec i s)
      ∧ (s.inputs = .seqStep :: rest → step s = exec i { s with inputs := rest }))
    ∧ (∀ (s : State) (i : Instr) (c : Cmd) (rest : List Input), s.ready → s.held = [] → s.inputs = .command c :: rest →
      decodeCommand c = .ok i → step s = exec i { s with inputs := rest })
    ∧ (∀ (s : State) (rest : List Input), s.ready → s.held = [] →
      (s.inputs = [] → step s = .next s)
        ∧ (s.inputs = .seqStep :: rest → step s = .next { s with inputs := rest }))
    ∧ ∀ (s : State) (rest : List Input), s.busy = false ∨ s.faulted = true → s.inputs = .run :: rest →
      step s = step { s with inputs := rest }

/-- THE MODEL'S CHOICE (log entries 1 and 3): an instruction's word placed by `withFetchWord` is what the very next step runs. A
micro-op runs in `s` with its word in the slot at SEQ_PC, BUSY = 1 and FAULTED = 0; a command in `s` with BUSY = 0 and no command
held. Nothing else of `s` differs. -/
def Obligations.PlacedWordRunsNext : Prop :=
  ∀ (s : State) (n : Nat) (i : Instr),
    (∀ m : Byte, encode i = .microOp m → step (s.withFetchWord n (encode i).toNat)
      = exec i { s with mp := s.mp.set s.seqPc.toNat m s.seqPc.isLt, busy := true, faulted := false })
      ∧ ∀ c : Cmd, encode i = .command c → step (s.withFetchWord n (encode i).toNat)
        = exec i { s with busy := false, held := [] }

/-- R13: every step of every state answers a next state; the model has no stop of its own (log entry 9). -/
def Obligations.EveryStepAnswersNext : Prop := ∀ s : State, ∃ t, step s = .next t

/-- One cycle that starts idle (R182, R208, R209). With no command on the port an accepted TICK executes slot 0 in the same cycle,
and without one nothing happens. A command on the port, held during a sequence (R148) or presented now, acts in this cycle: beside
a NOP the TICK is as before; BUILD and ARM take the cycle, an accepted DDS_INIT executes slot 26 in it, and a TICK beside them is
ignored; a command that faults beats the TICK of its cycle. THE MODEL'S CHOICE: of several commands the oldest held one acts, and
the one presented now waits behind the rest (log entry 12). -/
def Obligations.IdleCycleOrder : Prop :=
  ∀ (s : State) (tick : Bool) (cmd : Option Cmd) (rest : List Input), s.ready → s.inputs = .cycle false tick cmd :: rest →
    (s.held ++ cmd.toList = [] →
      (s.armed = true → tick = true → step s = seqStep { s with inputs := rest }.tickTaken)
        ∧ (s.armed = false ∨ tick = false → step s = .next { s with inputs := rest }))
      ∧ ∀ (c : Cmd) (h : List Cmd) (u : State), s.held ++ cmd.toList = c :: h → u = { s with inputs := rest, held := h } →
        (c = 0 →
          (s.armed = true → tick = true → step s = seqStep u.tickTaken)
            ∧ (s.armed = false ∨ tick = false → step s = .next u))
          ∧ (4 ≤ c.toNat → step s = .next (u.faultRecorded 8 .illegalCommand (BitVec.ofNat 6 c.toNat)))
          ∧ (s.armed = true → 1 ≤ c.toNat → c.toNat ≤ 3 → step s = .next (u.faultRecorded 7 .cmdAfterArm 0))
          ∧ (s.armed = false →
            (c = 1 → step s = exec .build u)
              ∧ (c = 2 → step s = seqStep { u with busy := true, seqPc := 26 })
              ∧ (c = 3 → step s = exec .arm u))

/-- One cycle that starts busy (R182, R209): the command is held, a TICK is sampled before the micro-op, and the micro-op sees
PENDING as the TICK left it, so a tick delayed in the cycle of slot 25 starts right after it. The TICK is held or lost as each
policy says (R131 to R133). THE MODEL'S CHOICE: under Either the draw is counted (log entry 7), and a command is put behind those
already held (log entry 12). -/
def Obligations.BusyCycleOrder : Prop :=
  ∀ (s : State) (cmd : Option Cmd) (rest : List Input), s.running →
    (∀ tick, tick = false ∨ s.armed = false → s.inputs = .cycle false tick cmd :: rest →
      step s = seqStep { s with inputs := rest, held := s.held ++ cmd.toList })
      ∧ (s.armed = true → s.cfg.overrun = .delay → s.pending = false → s.inputs = .cycle false true cmd :: rest →
        step s = seqStep { s with inputs := rest, held := s.held ++ cmd.toList }.tickHeld)
      ∧ (s.armed = true → s.cfg.overrun = .delay → s.pending = true → s.inputs = .cycle false true cmd :: rest →
        step s = seqStep { s with inputs := rest, held := s.held ++ cmd.toList }.tickLost)
      ∧ (s.armed = true → s.cfg.overrun = .either → s.inputs = .cycle false true cmd :: rest →
        (s.pending = false
            ∧ step s = seqStep { s with inputs := rest, held := s.held ++ cmd.toList, draws := s.draws + 1 }.tickHeld)
          ∨ step s = seqStep { s with inputs := rest, held := s.held ++ cmd.toList, draws := s.draws + 1 }.tickLost)
      ∧ (s.armed = true → s.cfg.overrun = .drop → s.inputs = .cycle false true cmd :: rest →
        step s = seqStep { s with inputs := rest, held := s.held ++ cmd.toList }.tickLost)

/-! ### Views -/

/-- STATUS and FAULT_INFO as the host reads them (R33). -/
def Obligations.StatusLayout : Prop :=
  ∀ s : State,
    s.status.toNat = s.built.toNat + 2 * s.initd.toNat + 4 * s.armed.toNat + 8 * s.busy.toNat + 16 * s.pending.toNat
        + 32 * s.faulted.toNat + 256 * s.faultCode.toNat
      ∧ s.faultInfoView.toNat = s.faultInfo.toNat

/-- R169 and R170: the observer captures BUS at a rising W_CLK, commits exactly five bytes at a rising FQ_UD and anything else as
Unknown, and forgets at a rising RESET. -/
def Obligations.ObserverCapturesAndCommits : Prop :=
  ∀ (tr : List Event) (o : Observer), o = observe tr →
    observe (tr ++ [.line (.wClk true)]) = { o with caps := o.caps ++ [o.hi ++ o.lo] }
      ∧ (∀ c b0 b1 b2 b3, o.caps = [c, b0, b1, b2, b3] → observe (tr ++ [.line (.fqUd true)])
          = { o with caps := [], active := some (b0 ++ b1 ++ b2 ++ b3), activeCtrl := some c })
      ∧ (o.caps.length ≠ 5 → observe (tr ++ [.line (.fqUd true)])
          = { o with caps := [], active := none, activeCtrl := none })
      ∧ observe (tr ++ [.line (.reset true)]) = { o with caps := [], active := none, activeCtrl := none }

/-! ### Whole sequences -/

/-- R136: from an idle armed block one TICK gives exactly TickAccepted and the 24 line writes, in order, and the end state R136
lists; a sequence that runs while a tick is pending ends the same way with the delayed tick started. -/
def Obligations.TickSequenceWritesExactTrace : Prop :=
  ∀ (s : State) (w : Word), s.mp = microProgram → s.rom.read s.cursor.toNat = some w → s.faulted = false →
    s.fqUd = false → s.wClk = false →
    (s.busy = false → s.armed = true → s.pending = false → s.held = [] → s.inputs = [.tick] →
      runSteps 27 s = .next
        { s with
          inputs := [], trace := s.trace ++ .tickAccepted :: tickEvents w, cursor := s.cursor + 1, word := some w, seqPc := 0
          trig := false, dataLo := BitVec.ofNat 6 w.toNat, dataHi := BitVec.ofNat 2 (w.toNat / 64)
          serviced := s.serviced + 1 })
      ∧ (s.busy = true → s.seqPc = 0 → s.pending = true → s.inputs = [] →
        runSteps 26 s = .next
          { s with
            trace := s.trace ++ tickEvents w ++ [.tickAccepted], cursor := s.cursor + 1, word := some w
            trig := false, dataLo := BitVec.ofNat 6 w.toNat, dataHi := BitVec.ofNat 2 (w.toNat / 64)
            serviced := s.serviced + 1, pending := false })

/-- R152: an accepted DDS_INIT appends exactly its four events, in order; afterwards FQ_UD = 0, RESET = 0, INITD = 1, BUSY = 0,
and nothing else has changed. -/
def Obligations.DdsInitWritesExactTrace : Prop :=
  ∀ s : State, s.mp = microProgram → s.ready → s.armed = false → s.pending = false → s.held = [] →
    s.inputs = [.command 0b010] →
    runSteps 5 s = .next
      { s with
        inputs := [], trace := s.trace ++ initEvents, fqUd := false, resetLine := false, initd := true, seqPc := 0 }

/-- The table walk (R139 to R141): n serviced ticks advance CURSOR by n modulo 64, each staging the entry CURSOR had, with 25
trace entries each; 64 of them return CURSOR to where it was. -/
def Obligations.ServicedTicksWalkTable : Prop :=
  ∀ (n : Nat) (s : State), BlockInv s → s.ready → s.armed = true → s.held = [] → s.inputs = tickThenRun n →
    ∃ t, runSteps (27 * n + 1) s = .next t
      ∧ t.cursor.toNat = (s.cursor.toNat + n) % 64 ∧ (n = 64 → t.cursor = s.cursor)
      ∧ (0 < n → t.word = s.rom.read ((s.cursor.toNat + n - 1) % 64))
      ∧ t.serviced = s.serviced + n ∧ t.overruns = s.overruns ∧ t.dropped = s.dropped
      ∧ t.trace.length = s.trace.length + 25 * n
      ∧ t.rom = s.rom ∧ t.ready ∧ t.armed = true ∧ t.inputs = []

/-- R158: BUILD and DDS_INIT commute before ARM, also when BUILD is held during the DDS reset sequence: the same state and the
same trace, with BUILT and INITD set. -/
def Obligations.BuildAndDdsInitCommute : Prop :=
  ∀ s : State, s.mp = microProgram → s.awaitsBuild → s.cfg.buildable → s.pending = false → s.held = [] →
    ∃ t, t.built = true ∧ t.initd = true
      ∧ runSteps 7 { s with inputs := [.command 0b001, .command 0b010, .run] } = .next t
      ∧ runSteps 7 { s with inputs := [.command 0b010, .run, .command 0b001] } = .next t
      ∧ runSteps 7 { s with inputs := [.command 0b010, .command 0b001] } = .next t

/-- R200, R208: a tick period of at least 26 cycles gives no overrun, for any number of cycles and any cycle `left` of the first
TICK. -/
def Obligations.PeriodOf26NeverOverruns : Prop :=
  ∀ (p n left : Nat) (s : State), 26 ≤ p → BlockInv s → s.ready → s.armed = true → s.held = [] →
    s.inputs = tickCycles p n left → ∃ t, runSteps n s = .next t
      ∧ t.overruns = s.overruns ∧ t.dropped = s.dropped ∧ t.faulted = false

/-- R200, R208: in every run in which the ticks come every `p` cycles, `p` at least 26, whatever the first cycle, the commands, the
resets and the RUNs between them, no tick is an overrun. Log entry 26 says which schedules have a period. -/
def Obligations.TicksOnPeriodNeverOverrun : Prop :=
  ∀ (p left n : Nat) (s : State), 26 ≤ p → BlockInv s → s.ready → ticksEvery p left n s = true →
    ∃ t, runSteps n s = .next t ∧ t.overruns ≤ s.overruns ∧ t.dropped ≤ s.dropped

/-! ### Invariants -/

/-- Every step keeps the table, flag and fault-register invariants, whatever the micro-program; and the invariant of the
block that runs R78's micro-program (R26, R41, R42, R110). -/
def Obligations.StepKeepsBlockInv : Prop :=
  ∀ s t : State, step s = .next t → (ControlInv s → ControlInv t) ∧ (BlockInv s → BlockInv t)

/-- Every step keeps the invariant of the block and its chip observer (R162, R169 to R172). -/
def Obligations.StepKeepsStreamInv : Prop := ∀ s t : State, StreamInv s → step s = .next t → StreamInv t

/-- The invariants hold at power-on of every instance with every schedule, and at `State.reset`. -/
def Obligations.InvariantsHoldAtReset : Prop :=
  (∀ (c : Config) (l : List Input), StreamInv (State.boot c l)) ∧ StreamInv State.reset

/-- No step writes the configuration or the micro-program (R80, R193). -/
def Obligations.StepKeepsConstants : Prop := ∀ s t : State, step s = .next t → t.cfg = s.cfg ∧ t.mp = s.mp

/-- The buses are written only while W_CLK = 0, before and after the write (R161): in every step of the machine that appends a bus
event to the trace, also one that writes the old value (R35), and in every step of the sequencer that changes a bus. -/
def Obligations.BusWrittenOnlyWhileClockLow : Prop :=
  ∀ s t : State, BlockInv s →
    (∀ evs : List Event, step s = .next t → t.trace = s.trace ++ evs →
      (∃ v, .line (.dataLo v) ∈ evs) ∨ (∃ v, .line (.dataHi v) ∈ evs) → s.wClk = false ∧ t.wClk = false)
      ∧ (seqStep s = .next t → (t.dataLo ≠ s.dataLo ∨ t.dataHi ≠ s.dataHi) → s.wClk = false ∧ t.wClk = false)

/-! ### Laws of every run from power-on, for every configuration and every schedule of events -/

/-- R41: in every state a run reaches with BUSY = 0 and FAULTED = 0, TRIG, FQ_UD, W_CLK and RESET are 0. R42: CURSOR is
CURSOR_INIT plus the ticks serviced, one more between slots 24 and 25, modulo 64. -/
def Obligations.IdleLinesLowAndCursorCounts : Prop :=
  ∀ (c : Config) (l : List Input) (n : Nat) (t : State), Reaches c l n t →
    (t.busy = false → t.faulted = false → t.trig = false ∧ t.fqUd = false ∧ t.wClk = false ∧ t.resetLine = false)
      ∧ t.cursor.toNat
        = (c.cursorInit.toNat + t.serviced + (if t.busy = true ∧ t.seqPc.toNat = 25 then 1 else 0)) % 64

/-- R44 and R45: no run reads a ROM entry or WORD while it holds no value. -/
def Obligations.NoReadWithoutValue : Prop :=
  ∀ (c : Config) (l : List Input) (n : Nat) (t : State), Reaches c l n t → t.running →
    ∀ (last : Bool) (j : BitVec 2),
      (decodeMicroOp t.fetch = .ok (.loadW last) → (t.rom.read t.cursor.toNat).isSome = true)
        ∧ (decodeMicroOp t.fetch = .ok (.outLoByte j last) ∨ decodeMicroOp t.fetch = .ok (.outHiByte j last) →
          t.word.isSome = true)

/-- R123: an illegal word faults ILLEGAL_MICROOP with its slot before any effect; only slots 30 and 31 hold one; and no run
reaches them, so the fault never occurs. -/
def Obligations.IllegalMicroOpNeverReached : Prop :=
  (∀ (s : State) (e : DecodeError), s.running → decodeMicroOp s.fetch = .error e →
    seqStep s = .next (s.faultRecorded 9 .illegalMicroop (BitVec.ofNat 6 s.seqPc.toNat)))
    ∧ (∀ k : Fin 32, (∃ e, decodeMicroOp microProgram[k] = .error e) ↔ 30 ≤ k.val)
    ∧ ∀ (c : Config) (l : List Input) (n : Nat) (t : State), Reaches c l n t →
      (t.busy = true → t.seqPc.toNat ≤ 29) ∧ t.faultCode ≠ 9

/-- R171 and R172: from the rising FQ_UD of tick k on, the observer's ACTIVE is Unknown for k = 1, and for k >= 2 the word that
tick k - 1 staged, ROM[(CURSOR_INIT + k - 2) mod 64], with control byte 0; here k = SERVICED + 1. -/
def Obligations.ChipRunsOneTickBehind : Prop :=
  ∀ (c : Config) (l : List Input) (n : Nat) (t : State), Reaches c l n t → t.inTick → 2 ≤ t.seqPc.toNat →
    (t.serviced = 0 → t.observer.active = none ∧ t.observer.activeCtrl = none)
      ∧ (1 ≤ t.serviced → ∃ w, t.rom.read ((c.cursorInit.toNat + t.serviced - 1) % 64) = some w
        ∧ t.observer.active = some w ∧ t.observer.activeCtrl = some 0)
end

