-- ==== Sys2Proof/Laws/Memory.lean ====
section
/-! SUPPORT. ROM: read after write, and the canonical form that every memory operation keeps. -/

namespace Sys2Proof.Machine

/-- A read of the entry just written gives the word written. -/
@[simp] theorem Memory.read_write_self (m : Memory) (i : Nat) (v : Word) : (m.write i v).read i = some v := by
  induction m with
  | nil => simp [Memory.write, Memory.read]
  | cons c m ih =>
    obtain ⟨a, u⟩ := c
    simp only [Memory.write]
    split
    · simp [Memory.read]
    · split
      · simp [Memory.read]
      · next h => simp [Memory.read, Ne.symm h, ih]

/-- A write leaves every other entry alone. -/
theorem Memory.read_write_other (m : Memory) {i j : Nat} (v : Word) (h : j ≠ i) : (m.write i v).read j = m.read j := by
  induction m with
  | nil => simp [Memory.write, Memory.read, Ne.symm h]
  | cons c m ih =>
    obtain ⟨a, u⟩ := c
    simp only [Memory.write]
    split
    · simp [Memory.read, Ne.symm h]
    · split
      · next h1 h2 => simp [Memory.read, Ne.symm h, h2 ▸ Ne.symm h]
      · simp [Memory.read, ih]

theorem Memory.wfFrom_mono {lo lo' : Nat} {m : Memory} (h : Memory.wfFrom lo m = true) (hl : lo' ≤ lo) :
    Memory.wfFrom lo' m = true := by
  cases m with
  | nil => rfl
  | cons c m =>
    simp only [Memory.wfFrom, Bool.and_eq_true, decide_eq_true_eq] at h ⊢
    exact ⟨⟨hl.trans h.1.1, h.1.2⟩, h.2⟩

theorem Memory.wfFrom_write {lo i : Nat} {m : Memory} (v : Word) (h : Memory.wfFrom lo m = true) (hl : lo ≤ i)
    (hi : i < 64) : Memory.wfFrom lo (m.write i v) = true := by
  induction m generalizing lo with
  | nil => simp [Memory.write, Memory.wfFrom, hl, hi]
  | cons c m ih =>
    obtain ⟨a, u⟩ := c
    simp only [Memory.wfFrom, Bool.and_eq_true, decide_eq_true_eq] at h
    simp only [Memory.write]
    split
    · next hia => simp [Memory.wfFrom, hl, hi, h.1.2, h.2, Nat.succ_le_of_lt hia]
    · split
      · next hia => subst hia; simp [Memory.wfFrom, hl, hi, h.2]
      · next h1 h2 =>
        simp only [Memory.wfFrom, Bool.and_eq_true, decide_eq_true_eq]
        exact ⟨h.1, ih h.2 (by omega)⟩

/-- A write at an index of the ROM keeps the canonical form. -/
theorem Memory.wf_write {m : Memory} {i : Nat} (v : Word) (h : m.wf = true) (hi : i < 64) : (m.write i v).wf = true :=
  Memory.wfFrom_write v h (Nat.zero_le i) hi

/-- The empty memory is canonical. -/
@[simp] theorem Memory.wf_nil : Memory.wf [] = true := rfl

/-- The memory of the reset state is canonical. -/
theorem reset_rom_wf : State.reset.rom.wf = true := rfl

/-- The word BUILD writes at index `k` (R101). -/
def tableWord (c : Config) (base k : Nat) : Word := BitVec.ofInt 32 (entryValue c base k)

theorem foldl_write_read (f : Nat → Word) (l : List Nat) (m : Memory) (k : Nat) (hd : l.Nodup) :
    (l.foldl (fun m k => m.write k (f k)) m).read k = if k ∈ l then some (f k) else m.read k := by
  induction l generalizing m with
  | nil => simp
  | cons a l ih =>
    simp only [List.nodup_cons] at hd
    simp only [List.foldl_cons, ih _ hd.2, List.mem_cons]
    by_cases hk : k ∈ l
    · simp [hk]
    · by_cases ha : k = a
      · subst ha; simp [hk]
      · simp [hk, ha, Memory.read_write_other]

theorem foldl_write_wf (f : Nat → Word) (l : List Nat) (m : Memory) (hl : ∀ k ∈ l, k < 64) (h : m.wf = true) :
    (l.foldl (fun m k => m.write k (f k)) m).wf = true := by
  induction l generalizing m with
  | nil => exact h
  | cons a l ih =>
    exact ih _ (fun k hk => hl k (List.mem_cons_of_mem a hk)) (Memory.wf_write _ h (hl a List.mem_cons_self))

/-- BUILD's 64 writes leave each entry its word and touch nothing beyond the ROM (R101). -/
theorem writeTable_read (c : Config) (base : Nat) (m : Memory) (k : Nat) :
    (writeTable c base m).read k = if k < 64 then some (tableWord c base k) else m.read k := by
  have h := foldl_write_read (tableWord c base) (List.range 64) m k List.nodup_range
  simp only [List.mem_range] at h
  unfold writeTable
  exact h

/-- BUILD's 64 writes keep the canonical form. -/
theorem writeTable_wf (c : Config) (base : Nat) (m : Memory) (h : m.wf = true) : (writeTable c base m).wf = true := by
  unfold writeTable
  exact foldl_write_wf (tableWord c base) (List.range 64) m (fun _ hk => List.mem_range.1 hk) h

end Sys2Proof.Machine
end

