-- ==== Sys2Proof/Laws/State.lean ====
section
/-! SUPPORT. One lemma per field for the named updates of the state: the projections of `note`, `startSequence`, `drive`,
`pwrReset` and of the updates the tick makes. -/

namespace Sys2Proof.Machine
@[simp] theorem State.note_cfg (s : State) (e : Event) : (s.note e).cfg = s.cfg := rfl
@[simp] theorem State.note_mp (s : State) (e : Event) : (s.note e).mp = s.mp := rfl
@[simp] theorem State.note_rom (s : State) (e : Event) : (s.note e).rom = s.rom := rfl
@[simp] theorem State.note_base (s : State) (e : Event) : (s.note e).base = s.base := rfl
@[simp] theorem State.note_cursor (s : State) (e : Event) : (s.note e).cursor = s.cursor := rfl
@[simp] theorem State.note_word (s : State) (e : Event) : (s.note e).word = s.word := rfl
@[simp] theorem State.note_seqPc (s : State) (e : Event) : (s.note e).seqPc = s.seqPc := rfl
@[simp] theorem State.note_busy (s : State) (e : Event) : (s.note e).busy = s.busy := rfl
@[simp] theorem State.note_pending (s : State) (e : Event) : (s.note e).pending = s.pending := rfl
@[simp] theorem State.note_built (s : State) (e : Event) : (s.note e).built = s.built := rfl
@[simp] theorem State.note_initd (s : State) (e : Event) : (s.note e).initd = s.initd := rfl
@[simp] theorem State.note_armed (s : State) (e : Event) : (s.note e).armed = s.armed := rfl
@[simp] theorem State.note_faulted (s : State) (e : Event) : (s.note e).faulted = s.faulted := rfl
@[simp] theorem State.note_faultCode (s : State) (e : Event) : (s.note e).faultCode = s.faultCode := rfl
@[simp] theorem State.note_faultInfo (s : State) (e : Event) : (s.note e).faultInfo = s.faultInfo := rfl
@[simp] theorem State.note_trig (s : State) (e : Event) : (s.note e).trig = s.trig := rfl
@[simp] theorem State.note_fqUd (s : State) (e : Event) : (s.note e).fqUd = s.fqUd := rfl
@[simp] theorem State.note_wClk (s : State) (e : Event) : (s.note e).wClk = s.wClk := rfl
@[simp] theorem State.note_resetLine (s : State) (e : Event) : (s.note e).resetLine = s.resetLine := rfl
@[simp] theorem State.note_modDisable (s : State) (e : Event) : (s.note e).modDisable = s.modDisable := rfl
@[simp] theorem State.note_dataLo (s : State) (e : Event) : (s.note e).dataLo = s.dataLo := rfl
@[simp] theorem State.note_dataHi (s : State) (e : Event) : (s.note e).dataHi = s.dataHi := rfl
@[simp] theorem State.note_trace (s : State) (e : Event) : (s.note e).trace = s.trace ++ [e] := rfl
@[simp] theorem State.note_serviced (s : State) (e : Event) : (s.note e).serviced = s.serviced := rfl
@[simp] theorem State.note_overruns (s : State) (e : Event) : (s.note e).overruns = s.overruns := rfl
@[simp] theorem State.note_dropped (s : State) (e : Event) : (s.note e).dropped = s.dropped := rfl
@[simp] theorem State.note_held (s : State) (e : Event) : (s.note e).held = s.held := rfl
@[simp] theorem State.note_inputs (s : State) (e : Event) : (s.note e).inputs = s.inputs := rfl
@[simp] theorem State.note_draws (s : State) (e : Event) : (s.note e).draws = s.draws := rfl

@[simp] theorem State.startSequence_cfg (s : State) (p : BitVec 5) : (s.startSequence p).cfg = s.cfg := rfl
@[simp] theorem State.startSequence_mp (s : State) (p : BitVec 5) : (s.startSequence p).mp = s.mp := rfl
@[simp] theorem State.startSequence_rom (s : State) (p : BitVec 5) : (s.startSequence p).rom = s.rom := rfl
@[simp] theorem State.startSequence_base (s : State) (p : BitVec 5) : (s.startSequence p).base = s.base := rfl
@[simp] theorem State.startSequence_cursor (s : State) (p : BitVec 5) : (s.startSequence p).cursor = s.cursor := rfl
@[simp] theorem State.startSequence_word (s : State) (p : BitVec 5) : (s.startSequence p).word = s.word := rfl
@[simp] theorem State.startSequence_seqPc (s : State) (p : BitVec 5) : (s.startSequence p).seqPc = p := rfl
@[simp] theorem State.startSequence_busy (s : State) (p : BitVec 5) : (s.startSequence p).busy = true := rfl
@[simp] theorem State.startSequence_pending (s : State) (p : BitVec 5) : (s.startSequence p).pending = s.pending := rfl
@[simp] theorem State.startSequence_built (s : State) (p : BitVec 5) : (s.startSequence p).built = s.built := rfl
@[simp] theorem State.startSequence_initd (s : State) (p : BitVec 5) : (s.startSequence p).initd = s.initd := rfl
@[simp] theorem State.startSequence_armed (s : State) (p : BitVec 5) : (s.startSequence p).armed = s.armed := rfl
@[simp] theorem State.startSequence_faulted (s : State) (p : BitVec 5) : (s.startSequence p).faulted = s.faulted := rfl
@[simp] theorem State.startSequence_faultCode (s : State) (p : BitVec 5) : (s.startSequence p).faultCode = s.faultCode := rfl
@[simp] theorem State.startSequence_faultInfo (s : State) (p : BitVec 5) : (s.startSequence p).faultInfo = s.faultInfo := rfl
@[simp] theorem State.startSequence_trig (s : State) (p : BitVec 5) : (s.startSequence p).trig = s.trig := rfl
@[simp] theorem State.startSequence_fqUd (s : State) (p : BitVec 5) : (s.startSequence p).fqUd = s.fqUd := rfl
@[simp] theorem State.startSequence_wClk (s : State) (p : BitVec 5) : (s.startSequence p).wClk = s.wClk := rfl
@[simp] theorem State.startSequence_resetLine (s : State) (p : BitVec 5) : (s.startSequence p).resetLine = s.resetLine := rfl
@[simp] theorem State.startSequence_modDisable (s : State) (p : BitVec 5) : (s.startSequence p).modDisable = s.modDisable := rfl
@[simp] theorem State.startSequence_dataLo (s : State) (p : BitVec 5) : (s.startSequence p).dataLo = s.dataLo := rfl
@[simp] theorem State.startSequence_dataHi (s : State) (p : BitVec 5) : (s.startSequence p).dataHi = s.dataHi := rfl
@[simp] theorem State.startSequence_trace (s : State) (p : BitVec 5) : (s.startSequence p).trace = s.trace := rfl
@[simp] theorem State.startSequence_serviced (s : State) (p : BitVec 5) : (s.startSequence p).serviced = s.serviced := rfl
@[simp] theorem State.startSequence_overruns (s : State) (p : BitVec 5) : (s.startSequence p).overruns = s.overruns := rfl
@[simp] theorem State.startSequence_dropped (s : State) (p : BitVec 5) : (s.startSequence p).dropped = s.dropped := rfl
@[simp] theorem State.startSequence_held (s : State) (p : BitVec 5) : (s.startSequence p).held = s.held := rfl
@[simp] theorem State.startSequence_inputs (s : State) (p : BitVec 5) : (s.startSequence p).inputs = s.inputs := rfl
@[simp] theorem State.startSequence_draws (s : State) (p : BitVec 5) : (s.startSequence p).draws = s.draws := rfl

@[simp] theorem State.acceptTick_cfg (s : State) : (s.acceptTick).cfg = s.cfg := rfl
@[simp] theorem State.acceptTick_mp (s : State) : (s.acceptTick).mp = s.mp := rfl
@[simp] theorem State.acceptTick_rom (s : State) : (s.acceptTick).rom = s.rom := rfl
@[simp] theorem State.acceptTick_base (s : State) : (s.acceptTick).base = s.base := rfl
@[simp] theorem State.acceptTick_cursor (s : State) : (s.acceptTick).cursor = s.cursor := rfl
@[simp] theorem State.acceptTick_word (s : State) : (s.acceptTick).word = s.word := rfl
@[simp] theorem State.acceptTick_seqPc (s : State) : (s.acceptTick).seqPc = tickEntry := rfl
@[simp] theorem State.acceptTick_busy (s : State) : (s.acceptTick).busy = true := rfl
@[simp] theorem State.acceptTick_pending (s : State) : (s.acceptTick).pending = s.pending := rfl
@[simp] theorem State.acceptTick_built (s : State) : (s.acceptTick).built = s.built := rfl
@[simp] theorem State.acceptTick_initd (s : State) : (s.acceptTick).initd = s.initd := rfl
@[simp] theorem State.acceptTick_armed (s : State) : (s.acceptTick).armed = s.armed := rfl
@[simp] theorem State.acceptTick_faulted (s : State) : (s.acceptTick).faulted = s.faulted := rfl
@[simp] theorem State.acceptTick_faultCode (s : State) : (s.acceptTick).faultCode = s.faultCode := rfl
@[simp] theorem State.acceptTick_faultInfo (s : State) : (s.acceptTick).faultInfo = s.faultInfo := rfl
@[simp] theorem State.acceptTick_trig (s : State) : (s.acceptTick).trig = s.trig := rfl
@[simp] theorem State.acceptTick_fqUd (s : State) : (s.acceptTick).fqUd = s.fqUd := rfl
@[simp] theorem State.acceptTick_wClk (s : State) : (s.acceptTick).wClk = s.wClk := rfl
@[simp] theorem State.acceptTick_resetLine (s : State) : (s.acceptTick).resetLine = s.resetLine := rfl
@[simp] theorem State.acceptTick_modDisable (s : State) : (s.acceptTick).modDisable = s.modDisable := rfl
@[simp] theorem State.acceptTick_dataLo (s : State) : (s.acceptTick).dataLo = s.dataLo := rfl
@[simp] theorem State.acceptTick_dataHi (s : State) : (s.acceptTick).dataHi = s.dataHi := rfl
@[simp] theorem State.acceptTick_trace (s : State) : (s.acceptTick).trace = s.trace ++ [.tickAccepted] := rfl
@[simp] theorem State.acceptTick_serviced (s : State) : (s.acceptTick).serviced = s.serviced := rfl
@[simp] theorem State.acceptTick_overruns (s : State) : (s.acceptTick).overruns = s.overruns := rfl
@[simp] theorem State.acceptTick_dropped (s : State) : (s.acceptTick).dropped = s.dropped := rfl
@[simp] theorem State.acceptTick_held (s : State) : (s.acceptTick).held = s.held := rfl
@[simp] theorem State.acceptTick_inputs (s : State) : (s.acceptTick).inputs = s.inputs := rfl
@[simp] theorem State.acceptTick_draws (s : State) : (s.acceptTick).draws = s.draws := rfl

@[simp] theorem State.loseTick_cfg (s : State) : (s.loseTick).cfg = s.cfg := rfl
@[simp] theorem State.loseTick_mp (s : State) : (s.loseTick).mp = s.mp := rfl
@[simp] theorem State.loseTick_rom (s : State) : (s.loseTick).rom = s.rom := rfl
@[simp] theorem State.loseTick_base (s : State) : (s.loseTick).base = s.base := rfl
@[simp] theorem State.loseTick_cursor (s : State) : (s.loseTick).cursor = s.cursor := rfl
@[simp] theorem State.loseTick_word (s : State) : (s.loseTick).word = s.word := rfl
@[simp] theorem State.loseTick_seqPc (s : State) : (s.loseTick).seqPc = s.seqPc := rfl
@[simp] theorem State.loseTick_busy (s : State) : (s.loseTick).busy = s.busy := rfl
@[simp] theorem State.loseTick_pending (s : State) : (s.loseTick).pending = s.pending := rfl
@[simp] theorem State.loseTick_built (s : State) : (s.loseTick).built = s.built := rfl
@[simp] theorem State.loseTick_initd (s : State) : (s.loseTick).initd = s.initd := rfl
@[simp] theorem State.loseTick_armed (s : State) : (s.loseTick).armed = s.armed := rfl
@[simp] theorem State.loseTick_faulted (s : State) : (s.loseTick).faulted = s.faulted := rfl
@[simp] theorem State.loseTick_faultCode (s : State) : (s.loseTick).faultCode = s.faultCode := rfl
@[simp] theorem State.loseTick_faultInfo (s : State) : (s.loseTick).faultInfo = s.faultInfo := rfl
@[simp] theorem State.loseTick_trig (s : State) : (s.loseTick).trig = s.trig := rfl
@[simp] theorem State.loseTick_fqUd (s : State) : (s.loseTick).fqUd = s.fqUd := rfl
@[simp] theorem State.loseTick_wClk (s : State) : (s.loseTick).wClk = s.wClk := rfl
@[simp] theorem State.loseTick_resetLine (s : State) : (s.loseTick).resetLine = s.resetLine := rfl
@[simp] theorem State.loseTick_modDisable (s : State) : (s.loseTick).modDisable = s.modDisable := rfl
@[simp] theorem State.loseTick_dataLo (s : State) : (s.loseTick).dataLo = s.dataLo := rfl
@[simp] theorem State.loseTick_dataHi (s : State) : (s.loseTick).dataHi = s.dataHi := rfl
@[simp] theorem State.loseTick_trace (s : State) : (s.loseTick).trace = s.trace ++ [.tickDropped] := rfl
@[simp] theorem State.loseTick_serviced (s : State) : (s.loseTick).serviced = s.serviced := rfl
@[simp] theorem State.loseTick_overruns (s : State) : (s.loseTick).overruns = s.overruns := rfl
@[simp] theorem State.loseTick_dropped (s : State) : (s.loseTick).dropped = s.dropped + 1 := rfl
@[simp] theorem State.loseTick_held (s : State) : (s.loseTick).held = s.held := rfl
@[simp] theorem State.loseTick_inputs (s : State) : (s.loseTick).inputs = s.inputs := rfl
@[simp] theorem State.loseTick_draws (s : State) : (s.loseTick).draws = s.draws := rfl

@[simp] theorem State.pwrReset_cfg (s : State) : (s.pwrReset).cfg = s.cfg := rfl
@[simp] theorem State.pwrReset_mp (s : State) : (s.pwrReset).mp = s.mp := rfl
@[simp] theorem State.pwrReset_rom (s : State) : (s.pwrReset).rom = [] := rfl
@[simp] theorem State.pwrReset_base (s : State) : (s.pwrReset).base = none := rfl
@[simp] theorem State.pwrReset_cursor (s : State) : (s.pwrReset).cursor = s.cfg.cursorInit := rfl
@[simp] theorem State.pwrReset_word (s : State) : (s.pwrReset).word = none := rfl
@[simp] theorem State.pwrReset_seqPc (s : State) : (s.pwrReset).seqPc = 0 := rfl
@[simp] theorem State.pwrReset_busy (s : State) : (s.pwrReset).busy = false := rfl
@[simp] theorem State.pwrReset_pending (s : State) : (s.pwrReset).pending = false := rfl
@[simp] theorem State.pwrReset_built (s : State) : (s.pwrReset).built = false := rfl
@[simp] theorem State.pwrReset_initd (s : State) : (s.pwrReset).initd = false := rfl
@[simp] theorem State.pwrReset_armed (s : State) : (s.pwrReset).armed = false := rfl
@[simp] theorem State.pwrReset_faulted (s : State) : (s.pwrReset).faulted = false := rfl
@[simp] theorem State.pwrReset_faultCode (s : State) : (s.pwrReset).faultCode = 0 := rfl
@[simp] theorem State.pwrReset_faultInfo (s : State) : (s.pwrReset).faultInfo = 0 := rfl
@[simp] theorem State.pwrReset_trig (s : State) : (s.pwrReset).trig = false := rfl
@[simp] theorem State.pwrReset_fqUd (s : State) : (s.pwrReset).fqUd = false := rfl
@[simp] theorem State.pwrReset_wClk (s : State) : (s.pwrReset).wClk = false := rfl
@[simp] theorem State.pwrReset_resetLine (s : State) : (s.pwrReset).resetLine = false := rfl
@[simp] theorem State.pwrReset_modDisable (s : State) : (s.pwrReset).modDisable = false := rfl
@[simp] theorem State.pwrReset_dataLo (s : State) : (s.pwrReset).dataLo = 0 := rfl
@[simp] theorem State.pwrReset_dataHi (s : State) : (s.pwrReset).dataHi = 0 := rfl
@[simp] theorem State.pwrReset_trace (s : State) : (s.pwrReset).trace = [] := rfl
@[simp] theorem State.pwrReset_serviced (s : State) : (s.pwrReset).serviced = 0 := rfl
@[simp] theorem State.pwrReset_overruns (s : State) : (s.pwrReset).overruns = 0 := rfl
@[simp] theorem State.pwrReset_dropped (s : State) : (s.pwrReset).dropped = 0 := rfl
@[simp] theorem State.pwrReset_held (s : State) : (s.pwrReset).held = s.held := rfl
@[simp] theorem State.pwrReset_inputs (s : State) : (s.pwrReset).inputs = s.inputs := rfl
@[simp] theorem State.pwrReset_draws (s : State) : (s.pwrReset).draws = s.draws := rfl

@[simp] theorem State.drive_trig_cfg (s : State) (v : Bool) : (s.drive (.trig v)).cfg = s.cfg := rfl
@[simp] theorem State.drive_trig_mp (s : State) (v : Bool) : (s.drive (.trig v)).mp = s.mp := rfl
@[simp] theorem State.drive_trig_rom (s : State) (v : Bool) : (s.drive (.trig v)).rom = s.rom := rfl
@[simp] theorem State.drive_trig_base (s : State) (v : Bool) : (s.drive (.trig v)).base = s.base := rfl
@[simp] theorem State.drive_trig_cursor (s : State) (v : Bool) : (s.drive (.trig v)).cursor = s.cursor := rfl
@[simp] theorem State.drive_trig_word (s : State) (v : Bool) : (s.drive (.trig v)).word = s.word := rfl
@[simp] theorem State.drive_trig_seqPc (s : State) (v : Bool) : (s.drive (.trig v)).seqPc = s.seqPc := rfl
@[simp] theorem State.drive_trig_busy (s : State) (v : Bool) : (s.drive (.trig v)).busy = s.busy := rfl
@[simp] theorem State.drive_trig_pending (s : State) (v : Bool) : (s.drive (.trig v)).pending = s.pending := rfl
@[simp] theorem State.drive_trig_built (s : State) (v : Bool) : (s.drive (.trig v)).built = s.built := rfl
@[simp] theorem State.drive_trig_initd (s : State) (v : Bool) : (s.drive (.trig v)).initd = s.initd := rfl
@[simp] theorem State.drive_trig_armed (s : State) (v : Bool) : (s.drive (.trig v)).armed = s.armed := rfl
@[simp] theorem State.drive_trig_faulted (s : State) (v : Bool) : (s.drive (.trig v)).faulted = s.faulted := rfl
@[simp] theorem State.drive_trig_faultCode (s : State) (v : Bool) : (s.drive (.trig v)).faultCode = s.faultCode := rfl
@[simp] theorem State.drive_trig_faultInfo (s : State) (v : Bool) : (s.drive (.trig v)).faultInfo = s.faultInfo := rfl
@[simp] theorem State.drive_trig_trig (s : State) (v : Bool) : (s.drive (.trig v)).trig = v := rfl
@[simp] theorem State.drive_trig_fqUd (s : State) (v : Bool) : (s.drive (.trig v)).fqUd = s.fqUd := rfl
@[simp] theorem State.drive_trig_wClk (s : State) (v : Bool) : (s.drive (.trig v)).wClk = s.wClk := rfl
@[simp] theorem State.drive_trig_resetLine (s : State) (v : Bool) : (s.drive (.trig v)).resetLine = s.resetLine := rfl
@[simp] theorem State.drive_trig_modDisable (s : State) (v : Bool) : (s.drive (.trig v)).modDisable = s.modDisable := rfl
@[simp] theorem State.drive_trig_dataLo (s : State) (v : Bool) : (s.drive (.trig v)).dataLo = s.dataLo := rfl
@[simp] theorem State.drive_trig_dataHi (s : State) (v : Bool) : (s.drive (.trig v)).dataHi = s.dataHi := rfl
@[simp] theorem State.drive_trig_trace (s : State) (v : Bool) : (s.drive (.trig v)).trace = s.trace ++ [.line (.trig v)] := rfl
@[simp] theorem State.drive_trig_serviced (s : State) (v : Bool) : (s.drive (.trig v)).serviced = s.serviced := rfl
@[simp] theorem State.drive_trig_overruns (s : State) (v : Bool) : (s.drive (.trig v)).overruns = s.overruns := rfl
@[simp] theorem State.drive_trig_dropped (s : State) (v : Bool) : (s.drive (.trig v)).dropped = s.dropped := rfl
@[simp] theorem State.drive_trig_held (s : State) (v : Bool) : (s.drive (.trig v)).held = s.held := rfl
@[simp] theorem State.drive_trig_inputs (s : State) (v : Bool) : (s.drive (.trig v)).inputs = s.inputs := rfl
@[simp] theorem State.drive_trig_draws (s : State) (v : Bool) : (s.drive (.trig v)).draws = s.draws := rfl

@[simp] theorem State.drive_fqUd_cfg (s : State) (v : Bool) : (s.drive (.fqUd v)).cfg = s.cfg := rfl
@[simp] theorem State.drive_fqUd_mp (s : State) (v : Bool) : (s.drive (.fqUd v)).mp = s.mp := rfl
@[simp] theorem State.drive_fqUd_rom (s : State) (v : Bool) : (s.drive (.fqUd v)).rom = s.rom := rfl
@[simp] theorem State.drive_fqUd_base (s : State) (v : Bool) : (s.drive (.fqUd v)).base = s.base := rfl
@[simp] theorem State.drive_fqUd_cursor (s : State) (v : Bool) : (s.drive (.fqUd v)).cursor = s.cursor := rfl
@[simp] theorem State.drive_fqUd_word (s : State) (v : Bool) : (s.drive (.fqUd v)).word = s.word := rfl
@[simp] theorem State.drive_fqUd_seqPc (s : State) (v : Bool) : (s.drive (.fqUd v)).seqPc = s.seqPc := rfl
@[simp] theorem State.drive_fqUd_busy (s : State) (v : Bool) : (s.drive (.fqUd v)).busy = s.busy := rfl
@[simp] theorem State.drive_fqUd_pending (s : State) (v : Bool) : (s.drive (.fqUd v)).pending = s.pending := rfl
@[simp] theorem State.drive_fqUd_built (s : State) (v : Bool) : (s.drive (.fqUd v)).built = s.built := rfl
@[simp] theorem State.drive_fqUd_initd (s : State) (v : Bool) : (s.drive (.fqUd v)).initd = s.initd := rfl
@[simp] theorem State.drive_fqUd_armed (s : State) (v : Bool) : (s.drive (.fqUd v)).armed = s.armed := rfl
@[simp] theorem State.drive_fqUd_faulted (s : State) (v : Bool) : (s.drive (.fqUd v)).faulted = s.faulted := rfl
@[simp] theorem State.drive_fqUd_faultCode (s : State) (v : Bool) : (s.drive (.fqUd v)).faultCode = s.faultCode := rfl
@[simp] theorem State.drive_fqUd_faultInfo (s : State) (v : Bool) : (s.drive (.fqUd v)).faultInfo = s.faultInfo := rfl
@[simp] theorem State.drive_fqUd_trig (s : State) (v : Bool) : (s.drive (.fqUd v)).trig = s.trig := rfl
@[simp] theorem State.drive_fqUd_fqUd (s : State) (v : Bool) : (s.drive (.fqUd v)).fqUd = v := rfl
@[simp] theorem State.drive_fqUd_wClk (s : State) (v : Bool) : (s.drive (.fqUd v)).wClk = s.wClk := rfl
@[simp] theorem State.drive_fqUd_resetLine (s : State) (v : Bool) : (s.drive (.fqUd v)).resetLine = s.resetLine := rfl
@[simp] theorem State.drive_fqUd_modDisable (s : State) (v : Bool) : (s.drive (.fqUd v)).modDisable = s.modDisable := rfl
@[simp] theorem State.drive_fqUd_dataLo (s : State) (v : Bool) : (s.drive (.fqUd v)).dataLo = s.dataLo := rfl
@[simp] theorem State.drive_fqUd_dataHi (s : State) (v : Bool) : (s.drive (.fqUd v)).dataHi = s.dataHi := rfl
@[simp] theorem State.drive_fqUd_trace (s : State) (v : Bool) : (s.drive (.fqUd v)).trace = s.trace ++ [.line (.fqUd v)] := rfl
@[simp] theorem State.drive_fqUd_serviced (s : State) (v : Bool) : (s.drive (.fqUd v)).serviced = s.serviced := rfl
@[simp] theorem State.drive_fqUd_overruns (s : State) (v : Bool) : (s.drive (.fqUd v)).overruns = s.overruns := rfl
@[simp] theorem State.drive_fqUd_dropped (s : State) (v : Bool) : (s.drive (.fqUd v)).dropped = s.dropped := rfl
@[simp] theorem State.drive_fqUd_held (s : State) (v : Bool) : (s.drive (.fqUd v)).held = s.held := rfl
@[simp] theorem State.drive_fqUd_inputs (s : State) (v : Bool) : (s.drive (.fqUd v)).inputs = s.inputs := rfl
@[simp] theorem State.drive_fqUd_draws (s : State) (v : Bool) : (s.drive (.fqUd v)).draws = s.draws := rfl

@[simp] theorem State.drive_wClk_cfg (s : State) (v : Bool) : (s.drive (.wClk v)).cfg = s.cfg := rfl
@[simp] theorem State.drive_wClk_mp (s : State) (v : Bool) : (s.drive (.wClk v)).mp = s.mp := rfl
@[simp] theorem State.drive_wClk_rom (s : State) (v : Bool) : (s.drive (.wClk v)).rom = s.rom := rfl
@[simp] theorem State.drive_wClk_base (s : State) (v : Bool) : (s.drive (.wClk v)).base = s.base := rfl
@[simp] theorem State.drive_wClk_cursor (s : State) (v : Bool) : (s.drive (.wClk v)).cursor = s.cursor := rfl
@[simp] theorem State.drive_wClk_word (s : State) (v : Bool) : (s.drive (.wClk v)).word = s.word := rfl
@[simp] theorem State.drive_wClk_seqPc (s : State) (v : Bool) : (s.drive (.wClk v)).seqPc = s.seqPc := rfl
@[simp] theorem State.drive_wClk_busy (s : State) (v : Bool) : (s.drive (.wClk v)).busy = s.busy := rfl
@[simp] theorem State.drive_wClk_pending (s : State) (v : Bool) : (s.drive (.wClk v)).pending = s.pending := rfl
@[simp] theorem State.drive_wClk_built (s : State) (v : Bool) : (s.drive (.wClk v)).built = s.built := rfl
@[simp] theorem State.drive_wClk_initd (s : State) (v : Bool) : (s.drive (.wClk v)).initd = s.initd := rfl
@[simp] theorem State.drive_wClk_armed (s : State) (v : Bool) : (s.drive (.wClk v)).armed = s.armed := rfl
@[simp] theorem State.drive_wClk_faulted (s : State) (v : Bool) : (s.drive (.wClk v)).faulted = s.faulted := rfl
@[simp] theorem State.drive_wClk_faultCode (s : State) (v : Bool) : (s.drive (.wClk v)).faultCode = s.faultCode := rfl
@[simp] theorem State.drive_wClk_faultInfo (s : State) (v : Bool) : (s.drive (.wClk v)).faultInfo = s.faultInfo := rfl
@[simp] theorem State.drive_wClk_trig (s : State) (v : Bool) : (s.drive (.wClk v)).trig = s.trig := rfl
@[simp] theorem State.drive_wClk_fqUd (s : State) (v : Bool) : (s.drive (.wClk v)).fqUd = s.fqUd := rfl
@[simp] theorem State.drive_wClk_wClk (s : State) (v : Bool) : (s.drive (.wClk v)).wClk = v := rfl
@[simp] theorem State.drive_wClk_resetLine (s : State) (v : Bool) : (s.drive (.wClk v)).resetLine = s.resetLine := rfl
@[simp] theorem State.drive_wClk_modDisable (s : State) (v : Bool) : (s.drive (.wClk v)).modDisable = s.modDisable := rfl
@[simp] theorem State.drive_wClk_dataLo (s : State) (v : Bool) : (s.drive (.wClk v)).dataLo = s.dataLo := rfl
@[simp] theorem State.drive_wClk_dataHi (s : State) (v : Bool) : (s.drive (.wClk v)).dataHi = s.dataHi := rfl
@[simp] theorem State.drive_wClk_trace (s : State) (v : Bool) : (s.drive (.wClk v)).trace = s.trace ++ [.line (.wClk v)] := rfl
@[simp] theorem State.drive_wClk_serviced (s : State) (v : Bool) : (s.drive (.wClk v)).serviced = s.serviced := rfl
@[simp] theorem State.drive_wClk_overruns (s : State) (v : Bool) : (s.drive (.wClk v)).overruns = s.overruns := rfl
@[simp] theorem State.drive_wClk_dropped (s : State) (v : Bool) : (s.drive (.wClk v)).dropped = s.dropped := rfl
@[simp] theorem State.drive_wClk_held (s : State) (v : Bool) : (s.drive (.wClk v)).held = s.held := rfl
@[simp] theorem State.drive_wClk_inputs (s : State) (v : Bool) : (s.drive (.wClk v)).inputs = s.inputs := rfl
@[simp] theorem State.drive_wClk_draws (s : State) (v : Bool) : (s.drive (.wClk v)).draws = s.draws := rfl

@[simp] theorem State.drive_reset_cfg (s : State) (v : Bool) : (s.drive (.reset v)).cfg = s.cfg := rfl
@[simp] theorem State.drive_reset_mp (s : State) (v : Bool) : (s.drive (.reset v)).mp = s.mp := rfl
@[simp] theorem State.drive_reset_rom (s : State) (v : Bool) : (s.drive (.reset v)).rom = s.rom := rfl
@[simp] theorem State.drive_reset_base (s : State) (v : Bool) : (s.drive (.reset v)).base = s.base := rfl
@[simp] theorem State.drive_reset_cursor (s : State) (v : Bool) : (s.drive (.reset v)).cursor = s.cursor := rfl
@[simp] theorem State.drive_reset_word (s : State) (v : Bool) : (s.drive (.reset v)).word = s.word := rfl
@[simp] theorem State.drive_reset_seqPc (s : State) (v : Bool) : (s.drive (.reset v)).seqPc = s.seqPc := rfl
@[simp] theorem State.drive_reset_busy (s : State) (v : Bool) : (s.drive (.reset v)).busy = s.busy := rfl
@[simp] theorem State.drive_reset_pending (s : State) (v : Bool) : (s.drive (.reset v)).pending = s.pending := rfl
@[simp] theorem State.drive_reset_built (s : State) (v : Bool) : (s.drive (.reset v)).built = s.built := rfl
@[simp] theorem State.drive_reset_initd (s : State) (v : Bool) : (s.drive (.reset v)).initd = s.initd := rfl
@[simp] theorem State.drive_reset_armed (s : State) (v : Bool) : (s.drive (.reset v)).armed = s.armed := rfl
@[simp] theorem State.drive_reset_faulted (s : State) (v : Bool) : (s.drive (.reset v)).faulted = s.faulted := rfl
@[simp] theorem State.drive_reset_faultCode (s : State) (v : Bool) : (s.drive (.reset v)).faultCode = s.faultCode := rfl
@[simp] theorem State.drive_reset_faultInfo (s : State) (v : Bool) : (s.drive (.reset v)).faultInfo = s.faultInfo := rfl
@[simp] theorem State.drive_reset_trig (s : State) (v : Bool) : (s.drive (.reset v)).trig = s.trig := rfl
@[simp] theorem State.drive_reset_fqUd (s : State) (v : Bool) : (s.drive (.reset v)).fqUd = s.fqUd := rfl
@[simp] theorem State.drive_reset_wClk (s : State) (v : Bool) : (s.drive (.reset v)).wClk = s.wClk := rfl
@[simp] theorem State.drive_reset_resetLine (s : State) (v : Bool) : (s.drive (.reset v)).resetLine = v := rfl
@[simp] theorem State.drive_reset_modDisable (s : State) (v : Bool) : (s.drive (.reset v)).modDisable = s.modDisable := rfl
@[simp] theorem State.drive_reset_dataLo (s : State) (v : Bool) : (s.drive (.reset v)).dataLo = s.dataLo := rfl
@[simp] theorem State.drive_reset_dataHi (s : State) (v : Bool) : (s.drive (.reset v)).dataHi = s.dataHi := rfl
@[simp] theorem State.drive_reset_trace (s : State) (v : Bool) : (s.drive (.reset v)).trace = s.trace ++ [.line (.reset v)] := rfl
@[simp] theorem State.drive_reset_serviced (s : State) (v : Bool) : (s.drive (.reset v)).serviced = s.serviced := rfl
@[simp] theorem State.drive_reset_overruns (s : State) (v : Bool) : (s.drive (.reset v)).overruns = s.overruns := rfl
@[simp] theorem State.drive_reset_dropped (s : State) (v : Bool) : (s.drive (.reset v)).dropped = s.dropped := rfl
@[simp] theorem State.drive_reset_held (s : State) (v : Bool) : (s.drive (.reset v)).held = s.held := rfl
@[simp] theorem State.drive_reset_inputs (s : State) (v : Bool) : (s.drive (.reset v)).inputs = s.inputs := rfl
@[simp] theorem State.drive_reset_draws (s : State) (v : Bool) : (s.drive (.reset v)).draws = s.draws := rfl

@[simp] theorem State.drive_dataLo_cfg (s : State) (v : BitVec 6) : (s.drive (.dataLo v)).cfg = s.cfg := rfl
@[simp] theorem State.drive_dataLo_mp (s : State) (v : BitVec 6) : (s.drive (.dataLo v)).mp = s.mp := rfl
@[simp] theorem State.drive_dataLo_rom (s : State) (v : BitVec 6) : (s.drive (.dataLo v)).rom = s.rom := rfl
@[simp] theorem State.drive_dataLo_base (s : State) (v : BitVec 6) : (s.drive (.dataLo v)).base = s.base := rfl
@[simp] theorem State.drive_dataLo_cursor (s : State) (v : BitVec 6) : (s.drive (.dataLo v)).cursor = s.cursor := rfl
@[simp] theorem State.drive_dataLo_word (s : State) (v : BitVec 6) : (s.drive (.dataLo v)).word = s.word := rfl
@[simp] theorem State.drive_dataLo_seqPc (s : State) (v : BitVec 6) : (s.drive (.dataLo v)).seqPc = s.seqPc := rfl
@[simp] theorem State.drive_dataLo_busy (s : State) (v : BitVec 6) : (s.drive (.dataLo v)).busy = s.busy := rfl
@[simp] theorem State.drive_dataLo_pending (s : State) (v : BitVec 6) : (s.drive (.dataLo v)).pending = s.pending := rfl
@[simp] theorem State.drive_dataLo_built (s : State) (v : BitVec 6) : (s.drive (.dataLo v)).built = s.built := rfl
@[simp] theorem State.drive_dataLo_initd (s : State) (v : BitVec 6) : (s.drive (.dataLo v)).initd = s.initd := rfl
@[simp] theorem State.drive_dataLo_armed (s : State) (v : BitVec 6) : (s.drive (.dataLo v)).armed = s.armed := rfl
@[simp] theorem State.drive_dataLo_faulted (s : State) (v : BitVec 6) : (s.drive (.dataLo v)).faulted = s.faulted := rfl
@[simp] theorem State.drive_dataLo_faultCode (s : State) (v : BitVec 6) : (s.drive (.dataLo v)).faultCode = s.faultCode := rfl
@[simp] theorem State.drive_dataLo_faultInfo (s : State) (v : BitVec 6) : (s.drive (.dataLo v)).faultInfo = s.faultInfo := rfl
@[simp] theorem State.drive_dataLo_trig (s : State) (v : BitVec 6) : (s.drive (.dataLo v)).trig = s.trig := rfl
@[simp] theorem State.drive_dataLo_fqUd (s : State) (v : BitVec 6) : (s.drive (.dataLo v)).fqUd = s.fqUd := rfl
@[simp] theorem State.drive_dataLo_wClk (s : State) (v : BitVec 6) : (s.drive (.dataLo v)).wClk = s.wClk := rfl
@[simp] theorem State.drive_dataLo_resetLine (s : State) (v : BitVec 6) : (s.drive (.dataLo v)).resetLine = s.resetLine := rfl
@[simp] theorem State.drive_dataLo_modDisable (s : State) (v : BitVec 6) : (s.drive (.dataLo v)).modDisable = s.modDisable := rfl
@[simp] theorem State.drive_dataLo_dataLo (s : State) (v : BitVec 6) : (s.drive (.dataLo v)).dataLo = v := rfl
@[simp] theorem State.drive_dataLo_dataHi (s : State) (v : BitVec 6) : (s.drive (.dataLo v)).dataHi = s.dataHi := rfl
@[simp] theorem State.drive_dataLo_trace (s : State) (v : BitVec 6) : (s.drive (.dataLo v)).trace = s.trace ++ [.line (.dataLo v)] := rfl
@[simp] theorem State.drive_dataLo_serviced (s : State) (v : BitVec 6) : (s.drive (.dataLo v)).serviced = s.serviced := rfl
@[simp] theorem State.drive_dataLo_overruns (s : State) (v : BitVec 6) : (s.drive (.dataLo v)).overruns = s.overruns := rfl
@[simp] theorem State.drive_dataLo_dropped (s : State) (v : BitVec 6) : (s.drive (.dataLo v)).dropped = s.dropped := rfl
@[simp] theorem State.drive_dataLo_held (s : State) (v : BitVec 6) : (s.drive (.dataLo v)).held = s.held := rfl
@[simp] theorem State.drive_dataLo_inputs (s : State) (v : BitVec 6) : (s.drive (.dataLo v)).inputs = s.inputs := rfl
@[simp] theorem State.drive_dataLo_draws (s : State) (v : BitVec 6) : (s.drive (.dataLo v)).draws = s.draws := rfl

@[simp] theorem State.drive_dataHi_cfg (s : State) (v : BitVec 2) : (s.drive (.dataHi v)).cfg = s.cfg := rfl
@[simp] theorem State.drive_dataHi_mp (s : State) (v : BitVec 2) : (s.drive (.dataHi v)).mp = s.mp := rfl
@[simp] theorem State.drive_dataHi_rom (s : State) (v : BitVec 2) : (s.drive (.dataHi v)).rom = s.rom := rfl
@[simp] theorem State.drive_dataHi_base (s : State) (v : BitVec 2) : (s.drive (.dataHi v)).base = s.base := rfl
@[simp] theorem State.drive_dataHi_cursor (s : State) (v : BitVec 2) : (s.drive (.dataHi v)).cursor = s.cursor := rfl
@[simp] theorem State.drive_dataHi_word (s : State) (v : BitVec 2) : (s.drive (.dataHi v)).word = s.word := rfl
@[simp] theorem State.drive_dataHi_seqPc (s : State) (v : BitVec 2) : (s.drive (.dataHi v)).seqPc = s.seqPc := rfl
@[simp] theorem State.drive_dataHi_busy (s : State) (v : BitVec 2) : (s.drive (.dataHi v)).busy = s.busy := rfl
@[simp] theorem State.drive_dataHi_pending (s : State) (v : BitVec 2) : (s.drive (.dataHi v)).pending = s.pending := rfl
@[simp] theorem State.drive_dataHi_built (s : State) (v : BitVec 2) : (s.drive (.dataHi v)).built = s.built := rfl
@[simp] theorem State.drive_dataHi_initd (s : State) (v : BitVec 2) : (s.drive (.dataHi v)).initd = s.initd := rfl
@[simp] theorem State.drive_dataHi_armed (s : State) (v : BitVec 2) : (s.drive (.dataHi v)).armed = s.armed := rfl
@[simp] theorem State.drive_dataHi_faulted (s : State) (v : BitVec 2) : (s.drive (.dataHi v)).faulted = s.faulted := rfl
@[simp] theorem State.drive_dataHi_faultCode (s : State) (v : BitVec 2) : (s.drive (.dataHi v)).faultCode = s.faultCode := rfl
@[simp] theorem State.drive_dataHi_faultInfo (s : State) (v : BitVec 2) : (s.drive (.dataHi v)).faultInfo = s.faultInfo := rfl
@[simp] theorem State.drive_dataHi_trig (s : State) (v : BitVec 2) : (s.drive (.dataHi v)).trig = s.trig := rfl
@[simp] theorem State.drive_dataHi_fqUd (s : State) (v : BitVec 2) : (s.drive (.dataHi v)).fqUd = s.fqUd := rfl
@[simp] theorem State.drive_dataHi_wClk (s : State) (v : BitVec 2) : (s.drive (.dataHi v)).wClk = s.wClk := rfl
@[simp] theorem State.drive_dataHi_resetLine (s : State) (v : BitVec 2) : (s.drive (.dataHi v)).resetLine = s.resetLine := rfl
@[simp] theorem State.drive_dataHi_modDisable (s : State) (v : BitVec 2) : (s.drive (.dataHi v)).modDisable = s.modDisable := rfl
@[simp] theorem State.drive_dataHi_dataLo (s : State) (v : BitVec 2) : (s.drive (.dataHi v)).dataLo = s.dataLo := rfl
@[simp] theorem State.drive_dataHi_dataHi (s : State) (v : BitVec 2) : (s.drive (.dataHi v)).dataHi = v := rfl
@[simp] theorem State.drive_dataHi_trace (s : State) (v : BitVec 2) : (s.drive (.dataHi v)).trace = s.trace ++ [.line (.dataHi v)] := rfl
@[simp] theorem State.drive_dataHi_serviced (s : State) (v : BitVec 2) : (s.drive (.dataHi v)).serviced = s.serviced := rfl
@[simp] theorem State.drive_dataHi_overruns (s : State) (v : BitVec 2) : (s.drive (.dataHi v)).overruns = s.overruns := rfl
@[simp] theorem State.drive_dataHi_dropped (s : State) (v : BitVec 2) : (s.drive (.dataHi v)).dropped = s.dropped := rfl
@[simp] theorem State.drive_dataHi_held (s : State) (v : BitVec 2) : (s.drive (.dataHi v)).held = s.held := rfl
@[simp] theorem State.drive_dataHi_inputs (s : State) (v : BitVec 2) : (s.drive (.dataHi v)).inputs = s.inputs := rfl
@[simp] theorem State.drive_dataHi_draws (s : State) (v : BitVec 2) : (s.drive (.dataHi v)).draws = s.draws := rfl

end Sys2Proof.Machine
end

