-- ==== Sys2Proof/Laws/Ops.lean ====
section
/-! SUPPORT. What each shared operation can do, said once: provers cite these and do not unfold the operation. -/

namespace Sys2Proof.Machine

/-- `drive` sets its line, records the write and does nothing else. -/
theorem State.drive_eq (s : State) (w : LineWrite) :
    s.drive w = { s.setLine w with trace := s.trace ++ [.line w] } := by
  cases w <;> rfl

/-- A fault changes the fault registers and the trace alone, and nothing once a fault is recorded (R176, R178). -/
theorem State.raise_eq (s : State) (code : FaultCode) (info : BitVec 6) :
    s.raise code info = if s.faulted then s else
      { s with faulted := true, faultCode := code.toCode, faultInfo := info, trace := s.trace ++ [.fault code info] } := rfl

/-- What ends a micro-op, with each field it may write as one expression (R109, R122). -/
theorem State.retire_eq (s : State) (last : Bool) :
    s.retire last = if last then
      { s with
        initd := s.initd || decide (s.seqPc = initEnd)
        serviced := s.serviced + (if s.seqPc = tickEnd then 1 else 0)
        busy := s.busy && s.pending
        pending := false
        seqPc := 0
        trace := s.trace ++ (if s.pending then [.tickAccepted] else []) }
    else { s with seqPc := s.seqPc + 1 } := by
  obtain ⟨⟩ := s
  cases last
  · rfl
  · simp only [State.retire, State.retireEnd, State.noteInit, State.noteServiced, State.endSequence, State.note]
    split_ifs <;> simp_all [tickEntry]

/-- A tick is ignored, accepted or an overrun, and nothing else (R127 to R130). -/
theorem State.tick_cases (s : State) :
    (s.faulted = true ∨ s.armed = false) ∧ s.tick = s
      ∨ s.faulted = false ∧ s.armed = true ∧ s.busy = false ∧ s.tick = s.acceptTick
      ∨ s.faulted = false ∧ s.armed = true ∧ s.busy = true ∧ s.tick = s.overrunTick := by
  unfold State.tick
  cases s.faulted <;> cases s.armed <;> cases s.busy <;> simp

/-- An overrun holds the tick or loses it; it writes PENDING, the ghost counters, the trace and the draws alone
(R130 to R133). -/
theorem State.overrunTick_eq (s : State) : ∃ d,
    s.overrunTick = { s with
        overruns := s.overruns + 1, draws := d, pending := true, trace := s.trace ++ [.tickDelayed] } ∧ s.pending = false
      ∨ s.overrunTick = { s with
        overruns := s.overruns + 1, draws := d, dropped := s.dropped + 1, trace := s.trace ++ [.tickDropped] } := by
  obtain ⟨⟩ := s
  simp only [State.overrunTick, State.overrunPolicy, State.holdTick, State.loseTick, State.note]
  split <;> (try split_ifs) <;> first | exact ⟨_, .inr rfl⟩ | exact ⟨_, .inl ⟨rfl, by simp_all⟩⟩

/-- A command is held, ignored, or its own acceptance decides (R148, R149). -/
theorem State.accept_eq (s : State) (act : State → State) :
    s.accept act = if s.busy = false ∧ s.faulted = false then act s else s := by
  unfold State.accept
  cases s.busy <;> cases s.faulted <;> simp

/-- LOAD.W writes WORD, and uses up a free value when the entry holds none (R118). -/
theorem State.loadWord_eq (s : State) :
    s.loadWord = { s with
      word := some s.romAtCursor
      draws := if (s.rom.read s.cursor.toNat).isNone then s.draws + 1 else s.draws } := by
  obtain ⟨⟩ := s
  simp only [State.loadWord, State.countDraw]
  split <;> simp_all

/-- Counting a draw writes the count alone. -/
theorem State.countDraw_eq (s : State) (v : Option Word) :
    s.countDraw v = { s with draws := if v.isNone then s.draws + 1 else s.draws } := by
  obtain ⟨⟩ := s
  simp only [State.countDraw]
  split <;> simp_all

end Sys2Proof.Machine
end

