-- ==== Sys2Proof/Laws/Build.lean ====
section
/-! SUPPORT. What BUILD's checks and its commit can do (spec/40_table_builder.md R94 to R101). -/

namespace Sys2Proof.Machine

@[simp] theorem State.commitTable_rom (s : State) :
    s.commitTable.rom = writeTable s.cfg (baseWord s.cfg) s.rom := rfl
@[simp] theorem State.commitTable_base (s : State) :
    s.commitTable.base = some (BitVec.ofNat 32 (baseWord s.cfg)) := rfl
@[simp] theorem State.commitTable_built (s : State) : s.commitTable.built = true := rfl
@[simp] theorem State.commitTable_armed (s : State) : s.commitTable.armed = s.armed := rfl
@[simp] theorem State.commitTable_initd (s : State) : s.commitTable.initd = s.initd := rfl

/-- BUILD faults, or commits after every check has passed (R100, R101). -/
theorem State.buildTable_cases (s : State) :
    (∃ code info, buildFault s.cfg = some (code, info) ∧ s.buildTable = s.raise code info)
      ∨ buildFault s.cfg = none ∧ s.buildTable = s.commitTable := by
  unfold State.buildTable
  split
  · next code info h => exact .inl ⟨code, info, h, rfl⟩
  · next h => exact .inr ⟨h, rfl⟩

/-- Entry `k` of the upper half over the integers (R98). -/
theorem entryValue_upper (c : Config) (base : Nat) {k : Nat} (h : k < 32) :
    entryValue c base k = (base : Int) + deviation c k := by simp [entryValue, h]

/-- Entry `k + 32` of the lower half over the integers (R99). -/
theorem entryValue_lower (c : Config) (base k : Nat) :
    entryValue c base (k + 32) = (base : Int) - deviation c k := by simp [entryValue]

/-- Where no check fails, the base and every entry are 32-bit words (R96, R98, R99). -/
theorem buildFault_none {c : Config} (h : buildFault c = none) :
    0 < c.clockHz ∧ 0 < c.devScale.num ∧ baseWord c ≤ maxWord
      ∧ ∀ k < 64, 0 ≤ entryValue c (baseWord c) k ∧ entryValue c (baseWord c) k ≤ maxWord := by
  unfold buildFault at h
  split at h
  · cases h
  split at h
  · cases h
  next h1 h2 =>
  refine ⟨by omega, by omega, by omega, fun k hk => ?_⟩
  have hx := (List.findSome?_eq_none_iff.1 h) k (List.mem_range.2 hk)
  unfold entryFault at hx
  split at hx <;> split at hx <;> cases hx
  · next hu hv => exact ⟨by rw [entryValue_upper _ _ hu]; omega, by omega⟩
  · next hu hv =>
    obtain ⟨i, rfl⟩ : ∃ i, k = i + 32 := ⟨k - 32, by omega⟩
    exact ⟨by omega, by rw [entryValue_lower]; omega⟩

end Sys2Proof.Machine
end

