-- ==== Sys2Proof/Laws/PerInstr.lean ====
section
/-! SUPPORT. Families of statements about each instruction as syntax, one lemma per constructor. -/

/-- The code word of the instruction has the bits that its row of spec/opcode_table.json fixes (R92). -/
def Sys2Proof.Laws.MatchesTableRow.Statement (i : Sys2Proof.Instr) : Prop :=
  (Sys2Proof.encode i).toNat &&& i.tableRow.mask = i.tableRow.value

namespace Sys2Proof.Laws.MatchesTableRow

theorem trigSet (last : Bool) : Statement (.trigSet last) := by cases last <;> rfl
theorem trigClr (last : Bool) : Statement (.trigClr last) := by cases last <;> rfl
theorem fqudTgl (last : Bool) : Statement (.fqudTgl last) := by cases last <;> rfl
theorem fqudClr (last : Bool) : Statement (.fqudClr last) := by cases last <;> rfl
theorem wclkTgl (last : Bool) : Statement (.wclkTgl last) := by cases last <;> rfl
theorem rstSet (last : Bool) : Statement (.rstSet last) := by cases last <;> rfl
theorem rstClr (last : Bool) : Statement (.rstClr last) := by cases last <;> rfl
theorem loadW (last : Bool) : Statement (.loadW last) := by cases last <;> rfl
theorem outLoByte (j : BitVec 2) (last : Bool) : Statement (.outLoByte j last) := by
  unfold Statement; revert j; cases last <;> decide
theorem outLoCtrl (last : Bool) : Statement (.outLoCtrl last) := by cases last <;> rfl
theorem outHiByte (j : BitVec 2) (last : Bool) : Statement (.outHiByte j last) := by
  unfold Statement; revert j; cases last <;> decide
theorem outHiCtrl (last : Bool) : Statement (.outHiCtrl last) := by cases last <;> rfl
theorem curInc (last : Bool) : Statement (.curInc last) := by cases last <;> rfl
theorem nop : Statement .nop := by rfl
theorem build : Statement .build := by rfl
theorem ddsInit : Statement .ddsInit := by rfl
theorem arm : Statement .arm := by rfl

end Sys2Proof.Laws.MatchesTableRow
end

