-- ==== Sys2Proof/Laws/Step.lean ====
section
/-! SUPPORT. What one step can do, said once: a property that each primitive event keeps, every step keeps. -/

namespace Sys2Proof.Machine

/-- `o` is a next state that has `P`. -/
def Yields (o : Result) (P : State → Prop) : Prop := ∃ t, o = .next t ∧ P t

theorem yields_next (s : State) (P : State → Prop) : Yields (.next s) P ↔ P s :=
  ⟨fun ⟨_, h, hp⟩ => by cases h; exact hp, fun h => ⟨s, rfl, h⟩⟩

theorem Yields.of_eq {o : Result} {P : State → Prop} {t : State} (h : Yields o P) (e : o = .next t) : P t := by
  obtain ⟨u, hu, hp⟩ := h
  rw [e] at hu
  cases hu
  exact hp

theorem Yields.andThen {o : Result} {P Q : State → Prop} {f : State → Result} (h : Yields o P)
    (hf : ∀ t, P t → Yields (f t) Q) : Yields (andThen o f) Q := by
  obtain ⟨u, rfl, hp⟩ := h
  exact hf u hp

/-- The events a step is made of. `KeptByEvents P` says that each keeps `P`: the schedule and the port change, PWR_RESET,
TICK, a command acts, a reserved code acts, the sequencer steps. -/
structure KeptByEvents (P : State → Prop) : Prop where
  inputs : ∀ s l, P s → P { s with inputs := l }
  held : ∀ s l, P s → P { s with held := l }
  reset : ∀ s, P s → P s.pwrReset
  tick : ∀ s, P s → P s.tick
  command : ∀ s i, i.isMicroOp = false → P s → Yields (exec i s) P
  reserved : ∀ s c, P s → P (s.reservedCommand c)
  sequencer : ∀ s, P s → Yields (seqStep s) P

theorem decodeCommand_not_microOp {c : Cmd} {i : Instr} (h : decodeCommand c = .ok i) : i.isMicroOp = false := by
  unfold decodeCommand at h
  split at h <;> cases h <;> rfl

/-- While the sequencer has a step no RUN is over. -/
theorem skipRun_running {s : State} (hb : s.busy = true) (hf : s.faulted = false) : s.skipRun = s := by
  simp [State.skipRun, hb, hf]

/-- A schedule that does not begin with RUN stays as it is. -/
theorem skipRun_of_front {s : State} (h : s.inputs.dropWhile Input.isRun = s.inputs) : s.skipRun = s := by
  unfold State.skipRun
  rw [h]
  split <;> rfl

theorem skipRun_cons {s : State} {e : Input} {rest : List Input} (h : s.inputs = e :: rest) (he : e.isRun = false) :
    s.skipRun = s := skipRun_of_front (by simp [h, he])

theorem skipRun_nil {s : State} (h : s.inputs = []) : s.skipRun = s := skipRun_of_front (by simp [h])

/-- A step with an entry other than RUN at the front. -/
theorem step_cons {s : State} {e : Input} {rest : List Input} (h : s.inputs = e :: rest) (he : e.isRun = false) :
    step s = if s.portOpen && !s.held.isEmpty && !e.comesFirst then takeHeld s else eventStep e rest s := by
  unfold step machineStep
  rw [skipRun_cons h he]
  simp only [frontStep, h]

/-- A step with an empty schedule. -/
theorem step_nil {s : State} (h : s.inputs = []) :
    step s = if s.portOpen && !s.held.isEmpty then takeHeld s else seqStep s := by
  unfold step machineStep
  rw [skipRun_nil h]
  simp only [frontStep, h]

/-- A step of RUN while the sequencer has a step. -/
theorem step_run {s : State} {rest : List Input} (h : s.inputs = .run :: rest) (hb : s.busy = true) (hf : s.faulted = false) :
    step s = seqStep s := by
  unfold step machineStep
  rw [skipRun_running hb hf]
  simp [frontStep, h, State.portOpen, hb, hf, eventStep]

namespace KeptByEvents

variable {P : State → Prop}

theorem hostCommand (k : KeptByEvents P) (c : Cmd) (s : State) (h : P s) : Yields (hostCommand c s) P := by
  unfold Sys2Proof.Machine.hostCommand
  split
  · next i hi => exact k.command s i (decodeCommand_not_microOp hi) h
  · exact (yields_next _ _).2 (k.reserved s c h)

theorem takeHeld (k : KeptByEvents P) (s : State) (h : P s) : Yields (takeHeld s) P := by
  unfold Sys2Proof.Machine.takeHeld
  split
  · exact (yields_next _ _).2 h
  · exact k.hostCommand _ _ (k.held s _ h)

theorem cycleStep (k : KeptByEvents P) (pwr tick : Bool) (cmd : Option Cmd) (s : State) (h : P s) :
    Yields (cycleStep pwr tick cmd s) P := by
  unfold Sys2Proof.Machine.cycleStep runCycle
  split
  · exact (yields_next _ _).2 (k.reset _ (k.held s _ h))
  · refine Yields.andThen (P := P) ?_ fun t ht => k.sequencer _ ?_
    · split
      · exact k.takeHeld _ (k.held s _ h)
      · exact (yields_next _ _).2 (k.held s _ h)
    · unfold sampleTick
      split
      · exact k.tick t ht
      · exact ht

theorem eventStep (k : KeptByEvents P) (e : Input) (rest : List Input) (s : State) (h : P s) :
    Yields (eventStep e rest s) P := by
  have hi := k.inputs s rest h
  cases e with
  | pwrReset => exact (yields_next _ _).2 (k.reset _ hi)
  | tick => exact (yields_next _ _).2 (k.tick _ hi)
  | command c =>
    simp only [Sys2Proof.Machine.eventStep, presentCommand]
    split
    · exact k.hostCommand c _ hi
    · exact (yields_next _ _).2 (k.held _ _ hi)
  | seqStep => exact k.sequencer _ hi
  | run => exact k.sequencer s h
  | cycle pwr tick cmd => exact k.cycleStep pwr tick cmd _ hi

theorem skipRun (k : KeptByEvents P) (s : State) (h : P s) : P s.skipRun := by
  unfold State.skipRun
  split
  · exact h
  · exact k.inputs s _ h

/-- A property that every event keeps, every step keeps; and every step answers a next state. -/
theorem step (k : KeptByEvents P) (s : State) (h : P s) : Yields (step s) P := by
  have h' := k.skipRun s h
  unfold Sys2Proof.Machine.step machineStep frontStep
  split
  · split
    · exact k.takeHeld _ h'
    · exact k.sequencer _ h'
  · split
    · exact k.takeHeld _ h'
    · exact k.eventStep _ _ _ h'

end KeptByEvents

end Sys2Proof.Machine
end

