-- ==== Sys2Proof/Laws/Sequencer.lean ====
section
/-! SUPPORT. What the sequencer runs in each slot of R78's micro-program. -/

namespace Sys2Proof.Machine

/-- The instruction that R78 lists at a slot from 0 to 29. -/
def slotInstr (k : Nat) : Instr := (tickSequence ++ initSequence).getD k .nop

theorem decode_program :
    ∀ pc : BitVec 5, pc.toNat ≤ 29 → decodeMicroOp (microProgram[pc.toNat]'(pc.isLt)) = .ok (slotInstr pc.toNat) := by
  decide

theorem fetch_program {s : State} (h : s.mp = microProgram) : s.fetch = microProgram[s.seqPc.toNat]'(s.seqPc.isLt) := by
  unfold State.fetch
  simp only [h]

/-- A running sequencer executes the instruction of its slot. -/
theorem seqStep_program {s : State} (hm : s.mp = microProgram) (hb : s.busy = true) (hf : s.faulted = false)
    (hp : s.seqPc.toNat ≤ 29) : seqStep s = exec (slotInstr s.seqPc.toNat) s := by
  unfold seqStep
  rw [fetch_program hm, decode_program _ hp]
  simp [hb, hf]

/-- A halted or idle sequencer has no step (R109). -/
theorem seqStep_stopped {s : State} (h : s.busy = false ∨ s.faulted = true) : seqStep s = .next s := by
  unfold seqStep
  rcases h with h | h <;> simp [h]

/-- The slots of R78, one case each. -/
theorem slot_cases {pc : BitVec 5} (h : pc.toNat ≤ 29) :
    pc = 0 ∨ pc = 1 ∨ pc = 2 ∨ pc = 3 ∨ pc = 4 ∨ pc = 5 ∨ pc = 6 ∨ pc = 7 ∨ pc = 8 ∨ pc = 9 ∨ pc = 10 ∨ pc = 11
      ∨ pc = 12 ∨ pc = 13 ∨ pc = 14 ∨ pc = 15 ∨ pc = 16 ∨ pc = 17 ∨ pc = 18 ∨ pc = 19 ∨ pc = 20 ∨ pc = 21 ∨ pc = 22
      ∨ pc = 23 ∨ pc = 24 ∨ pc = 25 ∨ pc = 26 ∨ pc = 27 ∨ pc = 28 ∨ pc = 29 := by
  revert pc
  decide

end Sys2Proof.Machine
end

