-- ==== Sys2Proof/Laws/Runs.lean ====
section
/-! SUPPORT. How the terms of `Safety.lean` meet the operations: runs, what END leaves, a recorded fault, BUILD's numbers.
A proof in parentheses, `(rfl)`, keeps `simp` from using the lemma by definitional unfolding, which the kernel would redo over
whole states. -/

namespace Sys2Proof.Machine

@[simp] theorem andThen_next (s : State) (f : State → Result) : andThen (.next s) f = f s := (rfl)

@[simp] theorem runSteps_zero (s : State) : runSteps 0 s = .next s := (rfl)

/-- The first step, then the rest. -/
theorem runSteps_succ (n : Nat) (s : State) : runSteps (n + 1) s = andThen (step s) (runSteps n) := (rfl)

/-- A run is the host's run of the machine. -/
theorem runSteps_eq_core (n : Nat) (s : State) : runSteps n s = Host.Core.run Sys2Proof.core n s := by
  induction n generalizing s with
  | zero => rfl
  | succ n ih =>
    have h : Sys2Proof.core.step s = step s := rfl
    simp only [Host.Core.run, h, runSteps_succ, andThen]
    cases step s
    · exact ih _
    · rfl
    · rfl

/-- Where `a` steps lead to `t`, `a + b` steps lead to where `b` steps lead from `t`. -/
theorem runSteps_add {a : Nat} {s t : State} (b : Nat) (h : runSteps a s = .next t) :
    runSteps (a + b) s = runSteps b t := by
  induction a generalizing s with
  | zero => cases h; simp
  | succ a ih =>
    rw [Nat.add_right_comm, runSteps_succ]
    rw [runSteps_succ] at h
    cases hs : step s with
    | next u => rw [hs] at h; exact ih h
    | fault r => rw [hs] at h; cases h
    | refused r => rw [hs] at h; cases h

/-- A property of power-on that every step keeps holds in every state a run reaches. -/
theorem Reaches.induct {P : State → Prop} {c : Config} {l : List Input} (h0 : P (State.boot c l))
    (hs : ∀ s t, P s → step s = .next t → P t) {n : Nat} {t : State} (h : Reaches c l n t) : P t := by
  have key : ∀ n s, P s → runSteps n s = .next t → P t := by
    intro n
    induction n with
    | zero => intro s hp h; cases h; exact hp
    | succ n ih =>
      intro s hp h
      rw [runSteps_succ] at h
      cases hu : step s with
      | next u => rw [hu] at h; exact ih u (hs s u hp hu) h
      | fault r => rw [hu] at h; cases h
      | refused r => rw [hu] at h; cases h
  exact key n _ h0 h

/-- While the timer counts down it gives cycles with no input. -/
theorem tickCycles_countdown (p a b : Nat) :
    tickCycles p (a + b) a = List.replicate a (.cycle false false none) ++ tickCycles p b 0 := by
  induction a with
  | zero => simp
  | succ a ih => rw [Nat.add_right_comm]; simp [tickCycles, ih, List.replicate_succ]

/-- Cycle level: the script `TICK; WAIT p` over and over is the timer of period p + 1 (R88, R208). -/
theorem scriptInputs_tick_wait (p k : Nat) :
    scriptInputs .cycle ((List.replicate k [ScriptLine.tick, .wait p]).flatten) = tickCycles (p + 1) (k * (p + 1)) 0 := by
  induction k with
  | zero => simp [scriptInputs, tickCycles]
  | succ k ih =>
    have h : (k + 1) * (p + 1) = (p + k * (p + 1)) + 1 := by rw [Nat.succ_mul]; omega
    rw [h]
    simp only [scriptInputs] at ih
    simp [scriptInputs, tickCycles, tickCycles_countdown, List.replicate_succ, ScriptLine.toInputs, tickInput, idleInput, ih]

/-- With an empty schedule a running sequencer executes the instruction of its slot. -/
theorem step_slot {s : State} (hi : s.inputs = []) (hm : s.mp = microProgram) (hb : s.busy = true)
    (hf : s.faulted = false) (hp : s.seqPc.toNat ≤ 29) : step s = exec (slotInstr s.seqPc.toNat) s := by
  rw [← seqStep_program hm hb hf hp, step_nil hi]
  simp [State.portOpen, hb, hf]

/-- What ends a micro-op whose own effect leaves `u`, where that effect writes neither SEQ_PC nor PENDING (R109, R122). -/
theorem retire_eq_retired {s u : State} (hpc : u.seqPc = s.seqPc) (hp : u.pending = s.pending) (last : Bool) :
    u.retire last = retired s u last := by
  have key : ∀ n < 32, (s.seqPc.toNat = n ↔ s.seqPc = BitVec.ofNat 5 n) := by
    intro n hn
    constructor
    · intro e; apply BitVec.eq_of_toNat_eq; simp; omega
    · intro e; simp [e]; omega
  have h29 := key 29 (by decide)
  have h25 := key 25 (by decide)
  cases last
  · simp [State.retire_eq, retired, hpc]
  · simp [State.retire_eq, retired, hpc, hp, initEnd, tickEnd, h29, h25]

/-- The first fault is recorded (R176). -/
theorem raise_eq_faultRecorded {s : State} (h : s.faulted = false) (cause : FaultCode) (info : BitVec 6) :
    s.raise cause info = s.faultRecorded cause.toCode cause info := by
  rw [State.raise_eq]
  simp [h, State.faultRecorded]

/-- The base that BUILD computes is R95's. -/
theorem baseWord_eq_baseOf (c : Config) : baseWord c = c.baseOf := rfl

/-- The deviation that BUILD computes is R97's. -/
theorem deviation_eq_devOf (c : Config) (i : Fin 32) : deviation c i = c.devOf i := by
  simp [deviation, refSample, Config.devOf]

/-- The word BUILD writes in the upper half (R98). -/
theorem tableWord_upper (c : Config) (i : Fin 32) :
    tableWord c (baseWord c) i = BitVec.ofNat 32 (c.baseOf + c.devOf i) := by
  rw [tableWord, entryValue_upper _ _ i.isLt, deviation_eq_devOf, baseWord_eq_baseOf, ← Nat.cast_add, BitVec.ofInt_natCast]

/-- The word BUILD writes in the lower half, where it does not fall below 0 (R99). -/
theorem tableWord_lower (c : Config) (i : Fin 32) (h : c.devOf i ≤ c.baseOf) :
    tableWord c (baseWord c) (i + 32) = BitVec.ofNat 32 (c.baseOf - c.devOf i) := by
  rw [tableWord, entryValue_lower, deviation_eq_devOf, baseWord_eq_baseOf, ← Nat.cast_sub h, BitVec.ofInt_natCast]

/-- The commit writes ROM, BASE and BUILT alone (R101). -/
theorem commitTable_eq (s : State) :
    s.commitTable = { s with rom := s.commitTable.rom, base := some (BitVec.ofNat 32 s.cfg.baseOf), built := true } := by
  rw [← baseWord_eq_baseOf]
  rfl

/-- A first BUILD does the computation of R94 to R101. -/
theorem exec_build_awaited {s : State} (h : s.awaitsBuild) : exec .build s = .next s.buildTable := by
  obtain ⟨⟨hb, hf⟩, ha, hbt⟩ := h
  simp [exec, execBuild, State.accept, hb, hf, ha, hbt]

/-- DATA_LO's part of byte_j as arithmetic (R68, R70). -/
theorem lowSix_byteOf (w : Word) (j : BitVec 2) :
    lowSix (byteOf w j) = BitVec.ofNat 6 (w.toNat / 2 ^ (8 * (3 - j.toNat))) := by
  apply BitVec.eq_of_toNat_eq
  simp [lowSix, byteOf, Nat.shiftRight_eq_div_pow]

/-- DATA_HI's part of byte_j as arithmetic (R68, R70). -/
theorem highTwo_byteOf (w : Word) (j : BitVec 2) :
    highTwo (byteOf w j) = BitVec.ofNat 2 (w.toNat / 2 ^ (8 * (3 - j.toNat)) % 256 / 64) := by
  apply BitVec.eq_of_toNat_eq
  simp [highTwo, byteOf, Nat.shiftRight_eq_div_pow]

end Sys2Proof.Machine
end

