-- ==== Sys2Proof/Tests/Slice0.lean ====
section
/-! SUPPORT. Small tests, with expected values from spec/95_test_vectors.md and the encoding tables, and a witness for every
obligation that has hypotheses. -/

namespace Sys2Proof.Tests

set_option Elab.async false

open Sys2Proof.Machine

/-! ### Helpers -/

/-- The fixture of spec/95_test_vectors.md section 0 with base 2^28. Its row gives CARRIER_HZ = 2^32, which R95 does not take
to that base; 2^28 does (log entry 24). -/
def fixture : Config where
  carrierHz := 268435456
  clockHz := 4294967296
  devScale := 1
  ref := Vector.ofFn fun i => 16 * i.val
  rounding := Rounding.halfUp
  overrun := .delay
  cursorInit := 0
  tickPeriod := none
  tCycle := 0

/-- The fixture with REF[1] = x and every other sample 0. -/
def oneSample (carrier clock x : Nat) (scale : Rat) : Config :=
  { fixture with carrierHz := carrier, clockHz := clock, devScale := scale, ref := Vector.ofFn fun i => if i.val = 1 then x else 0 }

/-- Power-on of the fixture. -/
def fresh : State := State.powerOn fixture

/-- Idle after BUILD, DDS_INIT and ARM, over a table with every entry 0x28F5C28F. -/
def armedIdle : State :=
  { fresh with
    rom := (List.range 64).map fun k => (k, 0x28F5C28F), base := some 0x28F5C28F, built := true, initd := true, armed := true }

/-- A tick sequence of that block at slot `pc`. -/
def inSlot (pc : BitVec 5) : State := { armedIdle with busy := true, seqPc := pc, trig := true, word := some 0x28F5C28F }

/-- Whether the outcome is a next state with `p`. -/
def gives (o : Result) (p : State → Bool) : Bool :=
  match o with
  | .next t => p t
  | _ => false

/-- The next state, or power-on where there is none. -/
def nextOf (o : Result) : State :=
  match o with
  | .next t => t
  | _ => fresh

/-- An outcome with a next state is that next state. -/
theorem eq_nextOf {o : Result} {p : State → Bool} (h : gives o p = true) : o = .next (nextOf o) ∧ p (nextOf o) = true := by
  cases o <;> simp_all [gives, nextOf]

/-- What `n` steps from power-on lead to. -/
def ran (c : Config) (l : List Input) (n : Nat) : Result := runSteps n (State.boot c l)

/-! ### Decoding: words written out from R73 to R75, R78 and R84 -/

theorem test_decode_line_words :
    decodeMicroOp 0b00010000 = .ok (.trigSet false) ∧ decodeMicroOp 0b00101000 = .ok (.trigClr true)
      ∧ decodeMicroOp 0b00110000 = .ok (.fqudTgl false) ∧ decodeMicroOp 0b01000000 = .ok (.fqudClr false)
      ∧ decodeMicroOp 0b01010000 = .ok (.wclkTgl false) ∧ decodeMicroOp 0b01100000 = .ok (.rstSet false)
      ∧ decodeMicroOp 0b01110000 = .ok (.rstClr false) ∧ decodeMicroOp 0b01111000 = .ok (.rstClr true) :=
  ⟨rfl, rfl, rfl, rfl, rfl, rfl, rfl, rfl⟩

theorem test_decode_data_words :
    decodeMicroOp 0b10000000 = .ok (.loadW false) ∧ decodeMicroOp 0b10010000 = .ok (.outLoByte 0 false)
      ∧ decodeMicroOp 0b10010011 = .ok (.outLoByte 3 false) ∧ decodeMicroOp 0b10011100 = .ok (.outLoCtrl true)
      ∧ decodeMicroOp 0b10100010 = .ok (.outHiByte 2 false) ∧ decodeMicroOp 0b10100100 = .ok (.outHiCtrl false)
      ∧ decodeMicroOp 0b10110000 = .ok (.curInc false) :=
  ⟨rfl, rfl, rfl, rfl, rfl, rfl, rfl⟩

theorem test_decode_commands :
    decodeCommand 0b000 = .ok .nop ∧ decodeCommand 0b001 = .ok .build ∧ decodeCommand 0b010 = .ok .ddsInit
      ∧ decodeCommand 0b011 = .ok .arm ∧ decodeCommand 0b101 = .error (.reservedCommand 0b101) :=
  ⟨rfl, rfl, rfl, rfl, rfl⟩

theorem test_decode_illegal_words :
    decodeMicroOp 0x00 = .error (.reservedOp 0) ∧ decodeMicroOp 0xD8 = .error (.reservedOp 0xD)
      ∧ decodeMicroOp 0x95 = .error (.reservedSource 9 5) ∧ decodeMicroOp 0xA7 = .error (.reservedSource 0xA 7)
      ∧ decodeMicroOp 0xB2 = .error (.strayOperand 0xB 2) :=
  ⟨rfl, rfl, rfl, rfl, rfl⟩

theorem test_table_words :
    decodeTableWord 8 0x28 = some (.trigClr true) ∧ decodeTableWord 8 0x02 = some .ddsInit
      ∧ decodeTableWord 8 0x05 = none ∧ decodeTableWord 8 0xFF = none ∧ decodeTableWord 16 0x110 = none := by decide

theorem test_assembler_round_trips :
    assembleLine "OUT.HI BYTE2" = some (.outHiByte 2 false) ∧ assembleLine "TRIG.CLR ;END" = some (.trigClr true)
      ∧ assembleLine "OUT.LO CTRL" = some (.outLoCtrl false) ∧ assembleLine "OUT.LO" = none := by decide +kernel

/-! ### Well-formedness: what each check refuses -/

theorem test_wellFormed_instr : (Instr.outLoByte 3 true).wellFormed = true := by decide
theorem test_wellFormed_codeWord :
    (CodeWord.microOp 0x93).wellFormed = true ∧ (CodeWord.microOp 0x97).wellFormed = false
      ∧ (CodeWord.command 4).wellFormed = false := by decide
theorem test_wellFormed_config :
    fixture.wellFormed = true ∧ (oneSample 1 0 0 1).wellFormed = false ∧ (oneSample 1 10 0 0).wellFormed = false := by
  decide +kernel
theorem test_wellFormed_microProgram :
    microProgramWellFormed microProgram = true
      ∧ microProgramWellFormed (microProgram.set 24 0xB8) = false ∧ microProgramWellFormed (microProgram.set 25 0x20) = false
      ∧ microProgramWellFormed (microProgram.set 3 0x84) = false := by decide +kernel
theorem test_memory_form :
    Memory.wf [(3, 1), (63, 2)] = true ∧ Memory.wf [(3, 1), (3, 2)] = false ∧ Memory.wf [(64, 1)] = false := by decide

/-! ### Micro-ops (spec/95_test_vectors.md 2.3 and 2.4) -/

theorem test_trigSet_records_unchanged :
    gives (exec (.trigSet false) (inSlot 0))
      (fun t => t.trig && t.trace == [.line (.trig true)] && t.seqPc == 1) = true := by decide +kernel
theorem test_trigClr_end_retires_tick :
    gives (exec (.trigClr true) (inSlot 25))
      (fun t => !t.trig && !t.busy && t.seqPc == 0 && t.serviced == 1 && t.trace == [.line (.trig false)]) = true := by
  decide +kernel
theorem test_trigClr_end_starts_pending_tick :
    gives (exec (.trigClr true) { inSlot 25 with pending := true })
      (fun t => t.busy && !t.pending && t.seqPc == 0 && t.trace == [.line (.trig false), .tickAccepted]) = true := by
  decide +kernel
theorem test_fqudTgl_both_ways :
    gives (exec (.fqudTgl false) fresh) (fun t => t.fqUd && t.trace == [.line (.fqUd true)]) = true
      ∧ gives (exec (.fqudTgl false) { fresh with fqUd := true }) (fun t => !t.fqUd) = true := by decide +kernel
theorem test_fqudClr_low :
    gives (exec (.fqudClr false) { fresh with fqUd := true }) (fun t => !t.fqUd && t.trace == [.line (.fqUd false)]) = true := by
  decide +kernel
theorem test_wclkTgl_both_ways :
    gives (exec (.wclkTgl false) fresh) (fun t => t.wClk && t.trace == [.line (.wClk true)]) = true
      ∧ gives (exec (.wclkTgl false) { fresh with wClk := true }) (fun t => !t.wClk) = true := by decide +kernel
theorem test_rstSet_high :
    gives (exec (.rstSet false) fresh) (fun t => t.resetLine && t.trace == [.line (.reset true)]) = true := by decide +kernel
theorem test_rstClr_end_sets_initd :
    gives (exec (.rstClr true) { fresh with busy := true, seqPc := 29, resetLine := true })
      (fun t => !t.resetLine && t.initd && !t.busy && t.seqPc == 0) = true := by decide +kernel
theorem test_loadW_reads_entry_at_cursor :
    gives (exec (.loadW false) { fresh with rom := [(8, 0x28F6AFD3), (63, 0x0FFFFE10)], cursor := 63 })
      (fun t => t.word == some 0x0FFFFE10 && t.trace == []) = true := by decide +kernel
theorem test_outLoByte_splits_word :
    gives (exec (.outLoByte 1 false) (inSlot 12)) (fun t => t.dataLo == 0x35) = true
      ∧ gives (exec (.outLoByte 2 false) (inSlot 16)) (fun t => t.dataLo == 0x02 && t.dataHi == 0) = true := by decide +kernel
theorem test_outLoCtrl_zero :
    gives (exec (.outLoCtrl false) { fresh with dataLo := 0x0F }) (fun t => t.dataLo == 0 && t.draws == 0) = true := by
  decide +kernel
theorem test_outHiByte_splits_word :
    gives (exec (.outHiByte 1 false) (inSlot 13)) (fun t => t.dataHi == 0b11) = true
      ∧ gives (exec (.outHiByte 3 false) (inSlot 21)) (fun t => t.dataHi == 0b10 && t.dataLo == 0) = true := by decide +kernel
theorem test_outHiCtrl_zero :
    gives (exec (.outHiCtrl false) { fresh with dataHi := 0b10 }) (fun t => t.dataHi == 0) = true := by decide +kernel
theorem test_curInc_wraps :
    gives (exec (.curInc false) { fresh with cursor := 63 }) (fun t => t.cursor == 0 && t.trace == []) = true := by
  decide +kernel
theorem test_illegal_word_faults_with_slot :
    gives (step (inSlot 30)) (fun t => t.faultCode == 9 && t.faultInfo == 30 && t.trace == [.fault .illegalMicroop 30]) = true := by
  decide +kernel

/-! ### Commands (spec/95_test_vectors.md 2.2 and 2.6) -/

theorem test_nop_changes_nothing : gives (exec .nop armedIdle) (fun t => t == armedIdle) = true := by decide +kernel
theorem test_build_ties_round_up :
    gives (exec .build (State.powerOn (oneSample 268435456 4294967296 1 (5 / 2))))
      (fun t => t.rom.read 1 == some 0x10000003 && t.rom.read 33 == some 0x0FFFFFFD && t.status == 0x0001) = true := by
  decide +kernel
theorem test_build_underflow_names_entry :
    gives (exec .build (State.powerOn (oneSample 50 4294967296 51 1)))
      (fun t => t.status == 0x0420 && t.faultInfo == 33 && t.rom == []) = true := by decide +kernel
theorem test_ddsInit_starts_at_26 :
    gives (exec .ddsInit fresh) (fun t => t.busy && t.seqPc == 26 && !t.initd) = true := by decide +kernel
theorem test_arm :
    gives (exec .arm { fresh with built := true, initd := true }) (fun t => t.status == 0x0007) = true
      ∧ gives (exec .arm { fresh with built := true }) (fun t => t.status == 0x0621) = true := by decide +kernel
theorem test_command_after_arm : gives (exec .ddsInit armedIdle) (fun t => t.status == 0x0727) = true := by decide +kernel
theorem test_reserved_command :
    gives (step { armedIdle with inputs := [.command 0b111] }) (fun t => t.status == 0x0827 && t.faultInfoView == 7) = true := by
  decide +kernel

/-! ### The tick, the cycle and the fetch (spec/95_test_vectors.md 2.5) -/

theorem test_delayed_tick_restarts_in_slot_25 :
    gives (step { inSlot 25 with inputs := [.cycle false true none] })
      (fun t => t.busy && t.seqPc == 0 && t.overruns == 1
        && t.trace == [.tickDelayed, .line (.trig false), .tickAccepted]) = true := by decide +kernel
theorem test_dropped_tick_in_slot_25 :
    gives (step { inSlot 25 with inputs := [.cycle false true none], cfg := { fixture with overrun := .drop } })
      (fun t => !t.busy && t.dropped == 1 && t.trace == [.tickDropped, .line (.trig false)]) = true := by decide +kernel
/-- A BUILD held during the DDS reset sequence acts in the first cycle with BUSY = 0, and the ARM presented there waits (R148). -/
theorem test_held_build_acts_in_first_idle_cycle :
    gives (step { fresh with initd := true, held := [1], inputs := [.cycle false true (some 3)] })
      (fun t => t.status == 0x0003 && t.held == [3] && t.trace == []) = true := by decide +kernel
/-- Cycle level: `TICK; WAIT 25; TICK` is a period of 26 cycles, and the second tick is accepted (R88, R200, R208). -/
theorem test_script_wait_25_between_ticks :
    scriptInputs .cycle [.tick, .wait 25, .tick] = tickCycles 26 27 0
      ∧ gives (runSteps 27 { armedIdle with inputs := scriptInputs .cycle [.tick, .wait 25, .tick] })
        (fun t => t.overruns == 0 && t.serviced == 1 && t.busy && t.seqPc == 1 && t.inputs == []) = true := by decide +kernel
/-- Cycle level: one cycle less, and the second tick falls in the cycle of slot 25 (95_test_vectors.md 2.5 and P5). -/
theorem test_script_wait_24_between_ticks :
    gives (runSteps 26 { armedIdle with inputs := scriptInputs .cycle [.tick, .wait 24, .tick] })
      (fun t => t.overruns == 1 && t.serviced == 1 && t.seqPc == 0 && t.inputs == []) = true := by decide +kernel
/-- P1 at the cycle level: BUILD in cycle 0, DDS_INIT in cycles 1 to 4, ARM in cycle 5, slot 0 in the cycle of the TICK. -/
theorem test_script_boot_at_cycle_level :
    gives (runSteps 5 (State.boot fixture (scriptInputs .cycle [.cmdBuild, .cmdDdsInit, .run, .cmdArm, .tick])))
        (fun t => t.status == 0x0003 && t.trace.length == 4) = true
      ∧ gives (runSteps 7 (State.boot fixture (scriptInputs .cycle [.cmdBuild, .cmdDdsInit, .run, .cmdArm, .tick])))
        (fun t => t.busy && t.trig && t.seqPc == 1 && t.inputs == []) = true := by decide +kernel
/-- Cycle level: RUN is over once BUSY = 0, so a held ARM acts in the cycle of the TICK after it, and that TICK comes before ARM
(R88, R128, R182, R209). -/
theorem test_script_held_arm_after_run :
    gives (runSteps 6 (State.boot fixture (scriptInputs .cycle [.cmdBuild, .cmdDdsInit, .cmdArm, .run, .tick])))
      (fun t => t.armed && !t.busy && t.held == [] && t.inputs == [] && t.trace.length == 4) = true := by decide +kernel
/-- Cycle level: `TICK; RUN; TICK` has its ticks 26 cycles apart, and no event-level TICK has a place between them (R9, R208). -/
theorem test_ticksEvery_counts_run :
    ticksEvery 26 0 40 { armedIdle with inputs := scriptInputs .cycle [.tick, .run, .tick] } = true
      ∧ ticksEvery 1 0 40 { armedIdle with inputs := scriptInputs .cycle [.tick, .run, .tick] } = false
      ∧ ticksEvery 27 0 40 { armedIdle with inputs := scriptInputs .cycle [.tick, .run, .tick] } = false
      ∧ ticksEvery 26 0 40 { armedIdle with inputs := [.cycle false true none, .tick] } = false := by decide +kernel
theorem test_power_reset_mid_tick :
    gives (step { inSlot 13 with inputs := [.pwrReset], cursor := 5 })
      (fun t => t.cursor == 0 && !t.trig && t.trace == [] && t.rom == [] && t.status == 0) = true := by decide +kernel
theorem test_placed_micro_op_runs_from_reset :
    gives (step (State.reset.withFetchWord 8 0x10)) (fun t => t.trig && t.seqPc == 1) = true := by decide +kernel
theorem test_placed_command_runs_from_reset :
    gives (step (State.reset.withFetchWord 8 2)) (fun t => t.busy && t.seqPc == 26) = true := by decide +kernel

/-! ### Witnesses: each shows a state and operands that meet an obligation's hypotheses -/

theorem witness_EncodeInvertsDecode :
    decode (.microOp 0xA3) = .ok (.outHiByte 3 false) ∧ decode (.command 3) = .ok .arm := ⟨rfl, rfl⟩

theorem witness_TransferBytesOnBus :
    ({ fresh with dataLo := 0x35, dataHi := 0b11 } : State).dataLo = (0xF5 : Byte).extractLsb 5 0
      ∧ ({ fresh with dataLo := 0x35, dataHi := 0b11 } : State).dataHi = (0xF5 : Byte).extractLsb 7 6 := by decide

theorem witness_LoadWordCopiesEntry :
    armedIdle.rom.read armedIdle.cursor.toNat = some 0x28F5C28F
      ∧ armedIdle.rom.read ({ armedIdle with cursor := 63 } : State).cursor.toNat = some 0x28F5C28F := by decide +kernel

theorem witness_ReadsWithoutValueRun : fresh.rom.read fresh.cursor.toNat = none ∧ fresh.word = none := by decide +kernel

theorem witness_OutLowDrivesSixBits :
    (inSlot 20).word = some 0x28F5C28F
      ∧ (0x28 : BitVec 6).toNat = (0x28F5C28F : Word).toNat / 2 ^ (8 * (3 - (0 : BitVec 2).toNat)) % 64
      ∧ (0x0F : BitVec 6).toNat = (0x28F5C28F : Word).toNat / 2 ^ (8 * (3 - (3 : BitVec 2).toNat)) % 64 := by decide +kernel

theorem witness_OutHighDrivesTwoBits :
    (inSlot 21).word = some 0x28F5C28F
      ∧ (0 : BitVec 2).toNat = (0x28F5C28F : Word).toNat / 2 ^ (8 * (3 - (0 : BitVec 2).toNat)) % 256 / 64
      ∧ (2 : BitVec 2).toNat = (0x28F5C28F : Word).toNat / 2 ^ (8 * (3 - (3 : BitVec 2).toNat)) % 256 / 64 := by decide +kernel

theorem witness_CursorAdvancesModulo64 :
    (1 : BitVec 6).toNat = (fresh.cursor.toNat + 1) % 64
      ∧ (0 : BitVec 6).toNat = (({ fresh with cursor := 63 } : State).cursor.toNat + 1) % 64 := by decide +kernel

theorem witness_EndRetiresSequence :
    (Instr.trigClr true).isMicroOp = true
      ∧ exec (withEnd false (.trigClr true)) (inSlot 25) = .next (nextOf (exec (withEnd false (.trigClr true)) (inSlot 25)))
      ∧ exec (withEnd false (.rstClr true)) { inSlot 29 with pending := true }
        = .next (nextOf (exec (withEnd false (.rstClr true)) { inSlot 29 with pending := true })) := ⟨rfl, rfl, rfl⟩

theorem witness_EndRetiresSequence_pending : ∃ s : State, BlockInv s ∧ s.pending = true :=
  have h1 : ControlInv { inSlot 25 with pending := true, cursor := 1 } := by decide +kernel
  have h2 : SequenceInv { inSlot 25 with pending := true, cursor := 1 } := by decide +kernel
  ⟨_, ⟨h1, h2⟩, rfl⟩

theorem witness_MicroOpWithoutEndKeepsFlags : (Instr.loadW false).endBit = some false := by decide

theorem fixture_buildable : fixture.buildable := by decide +kernel
theorem fresh_awaitsBuild : fresh.awaitsBuild := by decide +kernel
theorem witness_BuildWritesTable : fresh.awaitsBuild ∧ fresh.cfg.buildable := ⟨fresh_awaitsBuild, fixture_buildable⟩

/-- The configurations B3, B4, B6, B10, C-C, B12 and B14 of spec/95_test_vectors.md 2.2, and the largest values that pass. -/
theorem witness_BuildReportsFirstFailure_config :
    (State.powerOn (oneSample 1 0 0 1)).awaitsBuild ∧ (oneSample 1 0 0 1).clockHz = 0 ∧ (oneSample 1 10 0 0).devScale ≤ 0
      ∧ (oneSample 1 10 0 (-1)).devScale ≤ 0 := by decide +kernel
theorem witness_BuildReportsFirstFailure_base :
    0 < (oneSample 8589934591 8589934592 0 1).clockHz ∧ 0 < (oneSample 8589934591 8589934592 0 1).devScale
      ∧ 4294967295 < (oneSample 8589934591 8589934592 0 1).baseOf ∧ (oneSample 4294967295 4294967296 0 1).baseOf = 4294967295 := by
  decide +kernel
theorem witness_BuildReportsFirstFailure_upper :
    (State.powerOn (oneSample 4294967196 4294967296 100 1)).awaitsBuild ∧ (oneSample 4294967196 4294967296 100 1).baseOf ≤ 4294967295
      ∧ 4294967295 < (oneSample 4294967196 4294967296 100 1).baseOf + (oneSample 4294967196 4294967296 100 1).devOf 1
      ∧ ∀ j : Fin 32, j < 1 →
        (oneSample 4294967196 4294967296 100 1).baseOf + (oneSample 4294967196 4294967296 100 1).devOf j ≤ 4294967295 := by
  decide +kernel
theorem witness_BuildReportsFirstFailure_lower :
    (∀ j : Fin 32, (oneSample 50 4294967296 51 1).baseOf + (oneSample 50 4294967296 51 1).devOf j ≤ 4294967295)
      ∧ (oneSample 50 4294967296 51 1).baseOf < (oneSample 50 4294967296 51 1).devOf 1
      ∧ ∀ j : Fin 32, j < 1 → (oneSample 50 4294967296 51 1).devOf j ≤ (oneSample 50 4294967296 51 1).baseOf := by decide +kernel

theorem witness_RebuildFaults :
    ({ fresh with built := true } : State).ready ∧ ({ fresh with built := true } : State).built = true
      ∧ ({ fresh with built := true } : State).armed = false := by decide +kernel

theorem witness_BuiltTableIsSymmetric : ∃ t, fresh.built = false ∧ exec .build fresh = .next t ∧ t.built = true :=
  have h : gives (exec .build fresh) (fun t => t.built) = true := by decide +kernel
  ⟨nextOf (exec .build fresh), rfl, eq_nextOf h⟩

/-- The configuration of the source's worked example (R108). -/
def worked : Config :=
  { fixture with
    carrierHz := 20000000, clockHz := 125000000, devScale := 5 / 2, ref := Vector.ofFn fun i => if i.val = 8 then 24296 else 0 }

theorem witness_WorkedExampleTable :
    (State.powerOn worked).awaitsBuild ∧ worked.devScale = 5 / 2 ∧ worked.rounding = Rounding.halfUp ∧ worked.ref[0] = 0
      ∧ worked.ref[8] = 24296 ∧ ∀ i : Fin 32, worked.ref[i] ≤ 274877906 := by decide +kernel

theorem witness_RoundIsAdmissible : (0 : Nat) < 2 ∧ 1 * 2 ≤ 3 * 2 := by decide

theorem witness_DdsInitStartsSequence : fresh.ready ∧ fresh.armed = false := by decide +kernel

theorem witness_ArmNeedsBuiltAndInitd :
    (∃ s : State, s.ready ∧ s.armed = false ∧ s.built = true ∧ s.initd = true)
      ∧ (∃ s : State, s.ready ∧ s.armed = false ∧ s.built = true ∧ s.initd = false)
      ∧ ∃ s : State, s.ready ∧ s.armed = false ∧ s.built = false ∧ s.initd = true :=
  ⟨⟨{ fresh with built := true, initd := true }, by decide +kernel⟩, ⟨{ fresh with built := true }, by decide +kernel⟩,
    ⟨{ fresh with initd := true }, by decide +kernel⟩⟩

theorem witness_CommandsAfterArmFault : armedIdle.ready ∧ armedIdle.armed = true := by decide +kernel

theorem witness_ReservedCommandFaults :
    armedIdle.ready ∧ armedIdle.held = [] ∧ ({ armedIdle with inputs := [.command 4] } : State).inputs = .command 4 :: []
      ∧ 4 ≤ (4 : Cmd).toNat ∧ 4 ≤ (7 : Cmd).toNat := by decide +kernel

theorem witness_CommandHeldWhileBusy :
    Instr.build.isMicroOp = false ∧ (inSlot 3).running
      ∧ ({ inSlot 3 with inputs := [.command 1] } : State).inputs = .command 1 :: []
      ∧ ({ fresh with held := [1, 2] } : State).ready ∧ ({ fresh with held := [1, 2] } : State).inputs = []
      ∧ Input.tick.comesFirst = false ∧ decodeCommand 1 = .ok .build
      ∧ ({ fresh with held := [4], inputs := [.tick] } : State).ready ∧ 4 ≤ (4 : Cmd).toNat ∧ 4 ≤ (7 : Cmd).toNat :=
  ⟨rfl, ⟨rfl, rfl⟩, rfl, ⟨rfl, rfl⟩, rfl, rfl, rfl, ⟨rfl, rfl⟩, by decide, by decide⟩

theorem witness_FaultedBlockHalts :
    ∃ s : State, s.faulted = true ∧ (∀ rest, s.inputs.dropWhile Input.isRun ≠ .pwrReset :: rest)
      ∧ ∀ tick cmd rest, s.inputs.dropWhile Input.isRun ≠ .cycle true tick cmd :: rest :=
  ⟨{ inSlot 3 with faulted := true, inputs := [.tick] }, rfl, by simp [Input.isRun], by simp [Input.isRun]⟩

theorem witness_TickAcceptedWhenIdle :
    armedIdle.ready ∧ armedIdle.armed = true ∧ armedIdle.held = []
      ∧ ({ armedIdle with inputs := [.tick] } : State).inputs = .tick :: [] := by decide +kernel

theorem witness_TickIgnoredBeforeArmOrAfterFault :
    fresh.armed = false ∧ fresh.held = [] ∧ ({ armedIdle with faulted := true } : State).faulted = true
      ∧ ({ fresh with busy := true, seqPc := 26, held := [1] } : State).running
      ∧ ({ fresh with inputs := [.tick] } : State).inputs = .tick :: [] := by decide +kernel

theorem witness_OverrunFollowsPolicy :
    (inSlot 0).running ∧ (inSlot 25).running ∧ (inSlot 25).armed = true ∧ (inSlot 25).cfg.overrun = .delay
      ∧ (inSlot 25).pending = false ∧ ({ inSlot 25 with pending := true } : State).pending = true
      ∧ ({ inSlot 25 with cfg := { fixture with overrun := .drop } } : State).cfg.overrun = .drop := by decide +kernel

theorem witness_OverrunEitherIsOneOfTwo :
    ({ inSlot 7 with cfg := { fixture with overrun := .either }, inputs := [.tick] } : State).running
      ∧ ({ inSlot 7 with cfg := { fixture with overrun := .either }, inputs := [.tick] } : State).cfg.overrun = .either := by
  decide +kernel

theorem witness_PowerResetRestoresResetValues :
    ({ inSlot 13 with inputs := [.pwrReset] } : State).inputs = .pwrReset :: []
      ∧ ({ inSlot 13 with inputs := [.cycle true true (some 1)] } : State).inputs = .cycle true true (some 1) :: [] := by
  decide +kernel

theorem witness_StepRunsDecodedInstruction :
    (inSlot 3).running ∧ decodeMicroOp (inSlot 3).fetch = .ok (.loadW false)
      ∧ decodeMicroOp (inSlot 25).fetch = .ok (.trigClr true) ∧ (inSlot 3).inputs = [] ∧ fresh.ready ∧ fresh.held = []
      ∧ decodeCommand 2 = .ok .ddsInit ∧ fresh.inputs = []
      ∧ ({ fresh with inputs := [.run] } : State).ready ∧ ({ fresh with inputs := [.seqStep] } : State).inputs = .seqStep :: [] :=
  ⟨⟨rfl, rfl⟩, rfl, rfl, rfl, ⟨rfl, rfl⟩, rfl, rfl, rfl, ⟨rfl, rfl⟩, rfl⟩

theorem witness_PlacedWordRunsNext :
    encode (.curInc true) = .microOp 0xB8 ∧ encode .arm = .command 3 := ⟨rfl, rfl⟩

theorem witness_IdleCycleOrder :
    ({ armedIdle with inputs := [.cycle false true (some 3)] } : State).inputs = .cycle false true (some 3) :: []
      ∧ armedIdle.ready ∧ armedIdle.held = [] ∧ armedIdle.armed = true ∧ 1 ≤ (1 : Cmd).toNat ∧ (3 : Cmd).toNat ≤ 3
      ∧ 4 ≤ (4 : Cmd).toNat ∧ fresh.ready ∧ fresh.armed = false
      ∧ ({ fresh with built := true, initd := true } : State).ready
      ∧ ({ fresh with initd := true, held := [1, 3] } : State).ready
      ∧ ({ fresh with initd := true, held := [1, 3] } : State).held ++ (some (2 : Cmd)).toList = 1 :: [3, 2]
      ∧ ({ fresh with held := [0] } : State).held ++ (none : Option Cmd).toList = 0 :: []
      ∧ armedIdle.held ++ (none : Option Cmd).toList = [] := by decide +kernel

theorem witness_BusyCycleOrder :
    (inSlot 25).running ∧ (inSlot 25).armed = true ∧ (inSlot 25).cfg.overrun = .delay ∧ (inSlot 25).pending = false
      ∧ ({ inSlot 25 with inputs := [.cycle false true (some 1)] } : State).inputs = .cycle false true (some 1) :: []
      ∧ ({ inSlot 25 with pending := true, inputs := [.cycle false true none] } : State).running
      ∧ ({ inSlot 25 with pending := true, inputs := [.cycle false true none] } : State).pending = true
      ∧ ({ inSlot 0 with cfg := { fixture with overrun := .either } } : State).cfg.overrun = .either
      ∧ ({ inSlot 25 with cfg := { fixture with overrun := .drop }, inputs := [.cycle false true (some 3)] } : State).running
      ∧ ({ inSlot 25 with cfg := { fixture with overrun := .drop } } : State).armed = true
      ∧ ({ inSlot 25 with cfg := { fixture with overrun := .drop } } : State).cfg.overrun = .drop := by
  decide +kernel

theorem witness_ObserverCapturesAndCommits :
    (observe ((byteEvents 1 ++ byteEvents 2 ++ byteEvents 3 ++ byteEvents 4 ++ byteEvents 5))).caps = [1, 2, 3, 4, 5]
      ∧ (observe (byteEvents 1)).caps.length ≠ 5 := by decide +kernel

theorem witness_TickSequenceWritesExactTrace :
    ∃ s : State, s.mp = microProgram ∧ s.rom.read s.cursor.toNat = some 0x28F5C28F ∧ s.faulted = false ∧ s.fqUd = false
      ∧ s.wClk = false ∧ s.busy = false ∧ s.armed = true ∧ s.pending = false ∧ s.held = [] ∧ s.inputs = [.tick] :=
  ⟨{ armedIdle with inputs := [.tick] }, by decide +kernel⟩

theorem witness_TickSequenceWritesExactTrace_pending :
    ∃ s : State, s.mp = microProgram ∧ s.rom.read s.cursor.toNat = some 0x28F5C28F ∧ s.faulted = false ∧ s.fqUd = false
      ∧ s.wClk = false ∧ s.busy = true ∧ s.seqPc = 0 ∧ s.pending = true ∧ s.inputs = [] :=
  ⟨{ armedIdle with busy := true, pending := true, cursor := 63 }, by decide +kernel⟩

theorem witness_DdsInitWritesExactTrace :
    ∃ s : State, s.mp = microProgram ∧ s.ready ∧ s.armed = false ∧ s.pending = false ∧ s.held = []
      ∧ s.inputs = [.command 0b010] :=
  ⟨{ fresh with inputs := [.command 0b010] }, by decide +kernel⟩

theorem armedIdle_blockInv (l : List Input) : BlockInv { armedIdle with inputs := l } :=
  have h1 : ControlInv armedIdle := by decide +kernel
  have h2 : SequenceInv armedIdle := by decide +kernel
  ⟨h1, h2⟩

theorem witness_ServicedTicksWalkTable :
    ∃ s : State, BlockInv s ∧ s.ready ∧ s.armed = true ∧ s.held = [] ∧ s.inputs = tickThenRun 64 :=
  ⟨{ armedIdle with inputs := tickThenRun 64 }, armedIdle_blockInv _, ⟨rfl, rfl⟩, rfl, rfl, rfl⟩

theorem witness_BuildAndDdsInitCommute :
    fresh.mp = microProgram ∧ fresh.awaitsBuild ∧ fresh.cfg.buildable ∧ fresh.pending = false ∧ fresh.held = [] :=
  ⟨rfl, fresh_awaitsBuild, fixture_buildable, rfl, rfl⟩

theorem witness_PeriodOf26NeverOverruns :
    ∃ s : State, 26 ≤ 26 ∧ BlockInv s ∧ s.ready ∧ s.armed = true ∧ s.held = [] ∧ s.inputs = tickCycles 26 53 0 :=
  ⟨{ armedIdle with inputs := tickCycles 26 53 0 }, Nat.le_refl _, armedIdle_blockInv _, ⟨rfl, rfl⟩, rfl, rfl, rfl⟩

theorem witness_PeriodOf26NeverOverruns_later :
    ∃ s : State, 26 ≤ 27 ∧ BlockInv s ∧ s.ready ∧ s.armed = true ∧ s.held = [] ∧ s.inputs = tickCycles 27 60 30 :=
  ⟨{ armedIdle with inputs := tickCycles 27 60 30 }, by decide, armedIdle_blockInv _, ⟨rfl, rfl⟩, rfl, rfl, rfl⟩

theorem witness_TicksOnPeriodNeverOverrun :
    ∃ s : State, BlockInv s ∧ s.ready ∧ ticksEvery 26 0 40 s = true ∧ s.inputs = scriptInputs .cycle [.tick, .run, .tick] :=
  ⟨{ armedIdle with inputs := scriptInputs .cycle [.tick, .run, .tick] }, armedIdle_blockInv _, ⟨rfl, rfl⟩,
    test_ticksEvery_counts_run.1, rfl⟩

theorem witness_StepKeepsBlockInv : ∃ s t : State, BlockInv s ∧ step s = .next t :=
  have h : gives (step { armedIdle with inputs := [.tick] }) (fun t => t.busy) = true := by decide +kernel
  ⟨_, _, armedIdle_blockInv [.tick], (eq_nextOf h).1⟩

theorem witness_StepKeepsStreamInv : ∃ s t : State, StreamInv s ∧ step s = .next t :=
  have h : gives (step { fresh with inputs := [.command 2] }) (fun t => t.busy) = true := by decide +kernel
  have h1 : ControlInv fresh := by decide +kernel
  have h2 : SequenceInv fresh := by decide +kernel
  have h3 : BusInv fresh ∧ ObserverInv fresh := by decide +kernel
  ⟨{ fresh with inputs := [.command 2] }, _, ⟨⟨h1, h2⟩, h3⟩, (eq_nextOf h).1⟩

/-- Slot 4 of a tick sequence, with the bus still at an older byte. -/
def atSlot4 : State := { inSlot 4 with dataLo := 0x0F, cursor := 0 }

theorem witness_BusWrittenOnlyWhileClockLow :
    ∃ t, BlockInv atSlot4 ∧ seqStep atSlot4 = .next t ∧ (t.dataLo ≠ atSlot4.dataLo ∨ t.dataHi ≠ atSlot4.dataHi) :=
  have h : gives (seqStep atSlot4) (fun t => t.dataLo != atSlot4.dataLo) = true := by decide +kernel
  have h1 : ControlInv atSlot4 := by decide +kernel
  have h2 : SequenceInv atSlot4 := by decide +kernel
  ⟨nextOf (seqStep atSlot4), ⟨h1, h2⟩, (eq_nextOf h).1, .inl (by simpa using (eq_nextOf h).2)⟩

/-- The low half of the control byte written over a bus that holds it already: an event without a change (R35). -/
theorem witness_BusWrittenOnlyWhileClockLow_same :
    ∃ t, BlockInv { atSlot4 with dataLo := 0 } ∧ step { atSlot4 with dataLo := 0 } = .next t
      ∧ t.trace = atSlot4.trace ++ [.line (.dataLo 0)] :=
  have h : gives (step { atSlot4 with dataLo := 0 }) (fun t => t.trace == atSlot4.trace ++ [.line (.dataLo 0)]) = true := by
    decide +kernel
  have h1 : ControlInv { atSlot4 with dataLo := 0 } := by decide +kernel
  have h2 : SequenceInv { atSlot4 with dataLo := 0 } := by decide +kernel
  ⟨nextOf (step { atSlot4 with dataLo := 0 }), ⟨h1, h2⟩, (eq_nextOf h).1, by simpa using (eq_nextOf h).2⟩

/-- BUILD, DDS_INIT with its sequence, ARM and a serviced tick, then a second tick (P1 and P2 of spec/95_test_vectors.md). -/
def bootScript : List Input :=
  scriptInputs .event [.cmdBuild, .cmdDdsInit, .run, .cmdArm, .tick, .run, .tick]

theorem reaches_of_ran {c : Config} {l : List Input} {n : Nat} {p : State → Bool} (h : gives (ran c l n) p = true) :
    ∃ t, Reaches c l n t ∧ p t = true := ⟨nextOf (ran c l n), eq_nextOf h⟩

theorem witness_IdleLinesLowAndCursorCounts :
    ∃ t, Reaches fixture bootScript 7 t ∧ (!t.busy && !t.faulted && t.armed) = true :=
  reaches_of_ran (by decide +kernel)

theorem witness_NoReadWithoutValue_load :
    ∃ t, Reaches fixture bootScript 11 t ∧ (t.busy && !t.faulted && t.fetch == 0x80) = true :=
  reaches_of_ran (by decide +kernel)

theorem witness_NoReadWithoutValue_out :
    ∃ t, Reaches fixture bootScript 16 t ∧ (t.busy && !t.faulted && t.fetch == 0x90) = true :=
  reaches_of_ran (by decide +kernel)

theorem witness_IllegalMicroOpNeverReached :
    (inSlot 30).running ∧ decodeMicroOp (inSlot 30).fetch = .error (.reservedOp 0)
      ∧ decodeMicroOp (inSlot 31).fetch = .error (.reservedOp 0) :=
  ⟨⟨rfl, rfl⟩, rfl, rfl⟩

theorem witness_ChipRunsOneTickBehind_first :
    ∃ t, Reaches fixture bootScript 10 t ∧ (t.busy && t.seqPc == 2 && t.serviced == 0) = true :=
  reaches_of_ran (by decide +kernel)

theorem witness_ChipRunsOneTickBehind_second :
    ∃ t, Reaches fixture bootScript 37 t
      ∧ (t.busy && t.seqPc == 2 && t.serviced == 1 && t.observer.active == some 0x10000000) = true :=
  reaches_of_ran (by decide +kernel)

end Sys2Proof.Tests
end

section
/-! PROOFS. What each event of the block can do, said once: PWR_RESET, a micro-op, one step of the sequencer, a command,
a tick. The invariants are derived from these and unfold no meaning again. -/

namespace Sys2Proof.Machine

/-! ### PWR_RESET -/

/-- At power-on every element is at its reset value already. -/
theorem boot_pwrReset (c : Config) (l : List Input) : (State.boot c l).pwrReset = State.boot c l := rfl

/-! ### Micro-ops -/

/-- The effect of a micro-op without what ends it; a command has none. `exec_microOp` ties it to `exec`. -/
def microOpEffect (i : Instr) (s : State) : State :=
  match i with
  | .trigSet _ => s.drive (.trig true)
  | .trigClr _ => s.drive (.trig false)
  | .fqudTgl _ => s.drive (.fqUd (!s.fqUd))
  | .fqudClr _ => s.drive (.fqUd false)
  | .wclkTgl _ => s.drive (.wClk (!s.wClk))
  | .rstSet _ => s.drive (.reset true)
  | .rstClr _ => s.drive (.reset false)
  | .loadW _ => s.loadWord
  | .outLoByte j _ => (s.outLow (.byte j)).countDraw s.word
  | .outLoCtrl _ => s.outLow .ctrl
  | .outHiByte j _ => (s.outHigh (.byte j)).countDraw s.word
  | .outHiCtrl _ => s.outHigh .ctrl
  | .curInc _ => s.advanceCursor
  | .nop | .build | .ddsInit | .arm => s

/-- A micro-op is its effect and then what its END bit says (R109). -/
theorem exec_microOp {i : Instr} {last : Bool} (h : i.endBit = some last) (s : State) :
    exec i s = .next ((microOpEffect i s).retire last) := by
  cases i <;> cases h <;> rfl

/-- The effect of a micro-op writes CURSOR, WORD, the lines, the buses, the trace and the draws at most. -/
@[simp] theorem microOpEffect_frame (i : Instr) (s : State) :
    (microOpEffect i s).cfg = s.cfg ∧ (microOpEffect i s).mp = s.mp ∧ (microOpEffect i s).rom = s.rom
      ∧ (microOpEffect i s).base = s.base ∧ (microOpEffect i s).seqPc = s.seqPc ∧ (microOpEffect i s).busy = s.busy
      ∧ (microOpEffect i s).pending = s.pending ∧ (microOpEffect i s).built = s.built
      ∧ (microOpEffect i s).initd = s.initd ∧ (microOpEffect i s).armed = s.armed
      ∧ (microOpEffect i s).faulted = s.faulted ∧ (microOpEffect i s).faultCode = s.faultCode
      ∧ (microOpEffect i s).faultInfo = s.faultInfo ∧ (microOpEffect i s).modDisable = s.modDisable
      ∧ (microOpEffect i s).serviced = s.serviced ∧ (microOpEffect i s).overruns = s.overruns
      ∧ (microOpEffect i s).dropped = s.dropped ∧ (microOpEffect i s).held = s.held
      ∧ (microOpEffect i s).inputs = s.inputs := by
  cases i <;>
    simp [microOpEffect, State.outLow, State.outHigh, State.countDraw_eq, State.loadWord_eq, State.advanceCursor]

/-- Which micro-ops write each line, CURSOR and WORD, and what they write (R111 to R118, R121). -/
@[simp] theorem microOpEffect_writes (i : Instr) (s : State) :
    (microOpEffect i s).trig = (match i with | .trigSet _ => true | .trigClr _ => false | _ => s.trig)
      ∧ (microOpEffect i s).fqUd = (match i with | .fqudTgl _ => !s.fqUd | .fqudClr _ => false | _ => s.fqUd)
      ∧ (microOpEffect i s).wClk = (match i with | .wclkTgl _ => !s.wClk | _ => s.wClk)
      ∧ (microOpEffect i s).resetLine = (match i with | .rstSet _ => true | .rstClr _ => false | _ => s.resetLine)
      ∧ (microOpEffect i s).cursor = (match i with | .curInc _ => s.cursor + 1 | _ => s.cursor)
      ∧ (microOpEffect i s).word = (match i with | .loadW _ => some s.romAtCursor | _ => s.word) := by
  cases i <;>
    simp [microOpEffect, State.outLow, State.outHigh, State.countDraw_eq, State.loadWord_eq, State.advanceCursor]

/-- A word that decodes for the sequencer is a micro-op and has an END bit (R76). -/
theorem decodeMicroOp_endBit {m : Byte} {i : Instr} (h : decodeMicroOp m = .ok i) : ∃ last, i.endBit = some last := by
  unfold decodeMicroOp decodeSimple decodeOut at h
  repeat' split at h
  all_goals cases h
  all_goals exact ⟨_, rfl⟩

/-! ### The sequencer -/

/-- What one step of the sequencer can lead to (R109, R123). -/
inductive SequencerOutcome (s : State) : State → Prop
  | stopped (h : ¬ s.running) : SequencerOutcome s s
  | illegal (h : s.running) (e : DecodeError) (hd : decodeMicroOp s.fetch = .error e) :
      SequencerOutcome s (s.raise .illegalMicroop (s.seqPc.setWidth 6))
  | microOp (h : s.running) (i : Instr) (last : Bool) (hd : decodeMicroOp s.fetch = .ok i) (hl : i.endBit = some last) :
      SequencerOutcome s (retired s (microOpEffect i s) last)

theorem seqStep_outcome (s : State) : Yields (seqStep s) (SequencerOutcome s) := by
  by_cases h : s.running
  · have hg : (s.busy && !s.faulted) = true := by simp [h.1, h.2]
    unfold seqStep
    rw [if_pos hg]
    split
    · next i hd =>
      obtain ⟨last, hl⟩ := decodeMicroOp_endBit hd
      rw [exec_microOp hl, retire_eq_retired (s := s) (by simp) (by simp)]
      exact (yields_next _ _).2 (.microOp h i last hd hl)
    · next e hd => exact (yields_next _ _).2 (.illegal h e hd)
  · have hs : s.busy = false ∨ s.faulted = true := by
      cases hb : s.busy <;> cases hf : s.faulted <;> simp_all
    rw [seqStep_stopped hs]
    exact (yields_next _ _).2 (.stopped h)

/-! ### Commands -/

/-- What a command on the block's port can lead to (R93, R148 to R157). -/
inductive CommandOutcome (s : State) : State → Prop
  | unchanged : CommandOutcome s s
  | raised (h : s.ready) (code : FaultCode) (info : BitVec 6) : CommandOutcome s (s.raise code info)
  | committed (h : s.awaitsBuild) (hc : buildFault s.cfg = none) : CommandOutcome s s.commitTable
  | initStarted (h : s.ready) (ha : s.armed = false) : CommandOutcome s (s.startSequence initEntry)
  | nowArmed (h : s.ready) (hb : s.built = true) (hi : s.initd = true) : CommandOutcome s { s with armed := true }

/-- A command acts on a ready block alone; otherwise it leaves the block as it is (R148, R149). -/
theorem CommandOutcome.accept {s : State} {act : State → State} (h : s.ready → CommandOutcome s (act s)) :
    CommandOutcome s (s.accept act) := by
  rw [State.accept_eq]
  split
  · next hr => exact h hr
  · exact .unchanged

theorem exec_command_outcome {i : Instr} (hi : i.isMicroOp = false) (s : State) :
    Yields (exec i s) (CommandOutcome s) := by
  cases i <;> cases hi
  case nop => exact (yields_next _ _).2 (.accept fun _ => .unchanged)
  case build =>
    refine (yields_next _ _).2 (.accept fun hr => ?_)
    split
    · exact .raised hr _ _
    · next ha =>
      split
      · exact .raised hr _ _
      · next hb =>
        rcases s.buildTable_cases with ⟨code, info, _, e⟩ | ⟨hc, e⟩ <;> rw [e]
        · exact .raised hr code info
        · exact .committed ⟨hr, by simpa using ha, by simpa using hb⟩ hc
  case ddsInit =>
    refine (yields_next _ _).2 (.accept fun hr => ?_)
    split
    · exact .raised hr _ _
    · next ha => exact .initStarted hr (by simpa using ha)
  case arm =>
    refine (yields_next _ _).2 (.accept fun hr => ?_)
    split
    · exact .raised hr _ _
    · split
      · next hbi =>
        obtain ⟨hb, hi⟩ := Bool.and_eq_true_iff.1 hbi
        exact .nowArmed hr hb hi
      · exact .raised hr _ _

/-- A reserved command code faults on a ready block and does nothing else (R157). -/
theorem reservedCommand_outcome (s : State) (c : Cmd) : CommandOutcome s (s.reservedCommand c) :=
  .accept fun hr => .raised hr _ _

/-! ### Ticks -/

/-- What a TICK can lead to (R127 to R133). -/
inductive TickOutcome (s : State) : State → Prop
  | ignored : TickOutcome s s
  | accepted (h : s.ready) (ha : s.armed = true) : TickOutcome s s.tickTaken
  | delayed (h : s.running) (ha : s.armed = true) (hp : s.pending = false) (d : Nat) :
      TickOutcome s { s.tickHeld with draws := d }
  | lost (h : s.running) (ha : s.armed = true) (d : Nat) : TickOutcome s { s.tickLost with draws := d }

theorem tick_outcome (s : State) : TickOutcome s s.tick := by
  rcases s.tick_cases with ⟨_, e⟩ | ⟨hf, ha, hb, e⟩ | ⟨hf, ha, hb, e⟩ <;> rw [e]
  · exact .ignored
  · exact .accepted ⟨hb, hf⟩ ha
  · obtain ⟨d, ⟨ho, hp⟩ | ho⟩ := s.overrunTick_eq <;> rw [ho]
    · exact .delayed ⟨hb, hf⟩ ha hp d
    · exact .lost ⟨hb, hf⟩ ha d

/-! ### Steps -/

/-- A property that every outcome keeps, every event keeps. -/
theorem KeptByEvents.of_outcomes {P : State → Prop} (inputs : ∀ s l, P s → P { s with inputs := l })
    (held : ∀ s l, P s → P { s with held := l }) (reset : ∀ s, P s → P s.pwrReset)
    (tick : ∀ s t, P s → TickOutcome s t → P t) (command : ∀ s t, P s → CommandOutcome s t → P t)
    (sequencer : ∀ s t, P s → SequencerOutcome s t → P t) : KeptByEvents P where
  inputs := inputs
  held := held
  reset := reset
  tick s h := tick s _ h (tick_outcome s)
  command s _ hi h := let ⟨t, e, ho⟩ := exec_command_outcome hi s; ⟨t, e, command s t h ho⟩
  reserved s c h := command s _ h (reservedCommand_outcome s c)
  sequencer s h := let ⟨t, e, ho⟩ := seqStep_outcome s; ⟨t, e, sequencer s t h ho⟩

/-- A property of power-on that every event keeps holds in every state a run reaches. -/
theorem KeptByEvents.reaches {P : State → Prop} (k : KeptByEvents P) {c : Config} {l : List Input}
    (h0 : P (State.boot c l)) {n : Nat} {t : State} (h : Reaches c l n t) : P t :=
  h.induct h0 fun s _ hs e => (k.step s hs).of_eq e

end Sys2Proof.Machine
end

section
/-! PROOFS. The configuration and the micro-program are constants (R80, R193). -/

namespace Sys2Proof.Machine

@[simp] theorem State.raise_cfg (s : State) (code : FaultCode) (info : BitVec 6) : (s.raise code info).cfg = s.cfg := by
  rw [State.raise_eq]; split <;> rfl

@[simp] theorem State.raise_mp (s : State) (code : FaultCode) (info : BitVec 6) : (s.raise code info).mp = s.mp := by
  rw [State.raise_eq]; split <;> rfl

@[simp] theorem retired_cfg (s u : State) (last : Bool) : (retired s u last).cfg = u.cfg := by cases last <;> rfl

@[simp] theorem retired_mp (s u : State) (last : Bool) : (retired s u last).mp = u.mp := by cases last <;> rfl

/-- No event writes the configuration or the micro-program. -/
theorem keptByEvents_constants (c : Config) (m : Vector Byte 32) : KeptByEvents fun s => s.cfg = c ∧ s.mp = m := by
  refine .of_outcomes (fun s l h => h) (fun s l h => h) (fun s h => h) (fun s t h ho => ?_) (fun s t h ho => ?_)
    fun s t h ho => ?_
  · cases ho <;> exact h
  · cases ho with
    | raised hr code info => simpa using h
    | _ => exact h
  · cases ho with
    | stopped => exact h
    | illegal => simpa using h
    | microOp => simpa using h

/-- Every run keeps the configuration it starts with. -/
theorem Reaches.cfg_eq {c : Config} {l : List Input} {n : Nat} {t : State} (h : Reaches c l n t) : t.cfg = c :=
  ((keptByEvents_constants c microProgram).reaches ⟨rfl, rfl⟩ h).1

end Sys2Proof.Machine
end

section
/-! PROOFS. The table, flag and fault-register invariants (`ControlInv`), kept by every event whatever the micro-program. -/

namespace Sys2Proof.Machine

/-- A configuration that passes BUILD's checks gives entries that are 32-bit words (R98, R99). -/
theorem entries_inRange {c : Config} (h : buildFault c = none) (i : Fin 32) :
    c.baseOf + c.devOf i ≤ 4294967295 ∧ c.devOf i ≤ c.baseOf := by
  obtain ⟨-, -, -, he⟩ := buildFault_none h
  have hu := (he i (by omega)).2
  have hl := (he (i + 32) (by omega)).1
  rw [entryValue_upper _ _ i.isLt, deviation_eq_devOf, baseWord_eq_baseOf, maxWord] at hu
  rw [entryValue_lower, deviation_eq_devOf, baseWord_eq_baseOf] at hl
  omega

/-- The two halves of the table that BUILD commits are symmetric about BASE (R103). -/
theorem tableWord_symmetric {c : Config} (h : buildFault c = none) (i : Fin 32) :
    (tableWord c (baseWord c) i).toNat + (tableWord c (baseWord c) (i + 32)).toNat
      = 2 * (BitVec.ofNat 32 (baseWord c)).toNat := by
  obtain ⟨hu, hl⟩ := entries_inRange h i
  rw [tableWord_upper, tableWord_lower c i hl, baseWord_eq_baseOf]
  simp only [BitVec.toNat_ofNat]
  omega

/-- The commit of a BUILD that passes its checks makes the table hold (R101, R103). -/
theorem tableInv_commitTable {s : State} (hc : buildFault s.cfg = none) (hw : s.rom.wf = true) :
    TableInv s.commitTable := by
  have hread : ∀ k < 64, s.commitTable.rom.read k = some (tableWord s.cfg (baseWord s.cfg) k) := fun k hk => by
    rw [State.commitTable_rom, writeTable_read, if_pos hk]
  refine ⟨writeTable_wf _ _ _ hw, fun _ => ⟨rfl, fun k hk => by rw [hread k hk]; rfl, fun i hi => ?_⟩, fun h => by cases h⟩
  rw [hread i (by omega), hread (i + 32) (by omega)]
  exact tableWord_symmetric hc ⟨i, hi⟩

/-- The codes of the causes are 1 to 9 (R175). -/
theorem FaultCode.toCode_range (code : FaultCode) : code.toCode ≠ 0 ∧ code.toCode.toNat ≤ 9 := by
  cases code <;> decide

/-- The fault registers hold a code of R175 once a fault is recorded. -/
theorem faultInv_raise {s : State} (h : FaultInv s) (code : FaultCode) (info : BitVec 6) : FaultInv (s.raise code info) := by
  rw [State.raise_eq]
  split
  · exact h
  · obtain ⟨hne, hle⟩ := code.toCode_range
    exact ⟨hle, ⟨(nomatch ·), (absurd · hne)⟩, (nomatch ·)⟩

theorem controlInv_raise {s : State} (h : ControlInv s) (code : FaultCode) (info : BitVec 6) :
    ControlInv (s.raise code info) := by
  obtain ⟨ht, hg, hf⟩ := h
  have hf' := faultInv_raise hf code info
  rw [State.raise_eq] at hf' ⊢
  split at hf'
  · next hs => rw [if_pos hs]; exact ⟨ht, hg, hf'⟩
  · next hs => rw [if_neg hs]; exact ⟨ht, hg, hf'⟩

/-- PWR_RESET leaves the three invariants, whatever the state before (R40). -/
theorem controlInv_pwrReset (s : State) : ControlInv s.pwrReset := by
  simp [ControlInv, TableInv, FlagInv, FaultInv]

theorem controlInv_microOpEffect {s : State} (h : ControlInv s) (i : Instr) : ControlInv (microOpEffect i s) := by
  simpa [ControlInv, TableInv, FlagInv, FaultInv] using h

/-- What ends a micro-op of a running sequencer keeps the three invariants: RetireEnd leaves PENDING = 0 and SEQ_PC = 0. -/
theorem controlInv_retired {s u : State} (h : ControlInv u) (hb : u.busy = true) (last : Bool) :
    ControlInv (retired s u last) := by
  obtain ⟨ht, ⟨harm, hpend, -, hmod⟩, hf⟩ := h
  cases last
  · exact ⟨ht, ⟨harm, hpend, fun hi => by simp [retired, hb] at hi, hmod⟩, hf⟩
  · refine ⟨ht, ⟨fun ha => ?_, (nomatch ·), fun _ => rfl, hmod⟩, hf⟩
    obtain ⟨hbt, hi⟩ := harm ha
    exact ⟨hbt, by simp [retired, hi]⟩

theorem controlInv_tick {s t : State} (h : ControlInv s) (ho : TickOutcome s t) : ControlInv t := by
  cases ho with
  | ignored => exact h
  | accepted hr ha =>
    obtain ⟨ht, ⟨harm, hpend, -, hmod⟩, hf⟩ := h
    exact ⟨ht, ⟨harm, fun _ => ⟨rfl, ha⟩, (nomatch ·), hmod⟩, hf⟩
  | delayed hr ha hp d =>
    obtain ⟨ht, ⟨harm, -, hpc, hmod⟩, hf⟩ := h
    exact ⟨ht, ⟨harm, fun _ => ⟨hr.1, ha⟩, hpc, hmod⟩, hf⟩
  | lost => exact h

theorem controlInv_command {s t : State} (h : ControlInv s) (ho : CommandOutcome s t) : ControlInv t := by
  cases ho with
  | unchanged => exact h
  | raised hr code info => exact controlInv_raise h code info
  | committed hr hc =>
    obtain ⟨⟨hw, -⟩, ⟨harm, hrest⟩, hf⟩ := h
    exact ⟨tableInv_commitTable hc hw, ⟨fun ha => ⟨rfl, (harm ha).2⟩, hrest⟩, hf⟩
  | initStarted hr ha =>
    obtain ⟨ht, ⟨harm, hpend, -, hmod⟩, hf⟩ := h
    exact ⟨ht, ⟨harm, fun hp => ⟨rfl, (hpend hp).2⟩, (nomatch ·), hmod⟩, hf⟩
  | nowArmed hr hb hi =>
    obtain ⟨ht, ⟨-, hpend, hrest⟩, hf⟩ := h
    exact ⟨ht, ⟨fun _ => ⟨hb, hi⟩, fun hp => ⟨(hpend hp).1, rfl⟩, hrest⟩, hf⟩

theorem controlInv_sequencer {s t : State} (h : ControlInv s) (ho : SequencerOutcome s t) : ControlInv t := by
  cases ho with
  | stopped => exact h
  | illegal => exact controlInv_raise h _ _
  | microOp hr i last => exact controlInv_retired (controlInv_microOpEffect h i) (by simp [hr.1]) last

theorem keptByEvents_controlInv : KeptByEvents ControlInv :=
  .of_outcomes (fun _ _ h => h) (fun _ _ h => h) (fun s _ => controlInv_pwrReset s) (fun _ _ => controlInv_tick)
    (fun _ _ => controlInv_command) fun _ _ => controlInv_sequencer

end Sys2Proof.Machine
end

section
/-! PROOFS. What R78's micro-program does slot by slot, and the sequence invariant (`SequenceInv`), kept by every event. -/

namespace Sys2Proof.Machine

/-! ### The slots of R78 -/

/-- R78's listing, slot by slot. -/
@[simp] theorem slotInstr_listing :
    slotInstr 0 = .trigSet false ∧ slotInstr 1 = .fqudTgl false ∧ slotInstr 2 = .fqudTgl false
      ∧ slotInstr 3 = .loadW false ∧ slotInstr 4 = .outLoCtrl false ∧ slotInstr 5 = .outHiCtrl false
      ∧ slotInstr 6 = .wclkTgl false ∧ slotInstr 7 = .wclkTgl false ∧ slotInstr 8 = .outLoByte 0 false
      ∧ slotInstr 9 = .outHiByte 0 false ∧ slotInstr 10 = .wclkTgl false ∧ slotInstr 11 = .wclkTgl false
      ∧ slotInstr 12 = .outLoByte 1 false ∧ slotInstr 13 = .outHiByte 1 false ∧ slotInstr 14 = .wclkTgl false
      ∧ slotInstr 15 = .wclkTgl false ∧ slotInstr 16 = .outLoByte 2 false ∧ slotInstr 17 = .outHiByte 2 false
      ∧ slotInstr 18 = .wclkTgl false ∧ slotInstr 19 = .wclkTgl false ∧ slotInstr 20 = .outLoByte 3 false
      ∧ slotInstr 21 = .outHiByte 3 false ∧ slotInstr 22 = .wclkTgl false ∧ slotInstr 23 = .wclkTgl false
      ∧ slotInstr 24 = .curInc false ∧ slotInstr 25 = .trigClr true ∧ slotInstr 26 = .fqudClr false
      ∧ slotInstr 27 = .rstClr false ∧ slotInstr 28 = .rstSet false ∧ slotInstr 29 = .rstClr true := by
  decide

/-- The END bit of each slot is R78's. -/
theorem slotInstr_endBit : ∀ pc ≤ 29, (slotInstr pc).endBit = some (endsAt pc) := by decide

/-- Where SEQ_PC goes from slot `pc`: to the next slot, or back to 0 at an END (R109, R122). -/
def nextSlot (pc : Nat) : Nat := if endsAt pc then 0 else pc + 1

/-- Each slot takes the lines from what it finds to what the next slot finds (R110, R161, R164, R165, R167). -/
theorem linesAt_slot {s : State} {pc : Nat} (hp : pc ≤ 29) (h : LinesAt s pc) :
    LinesAt (microOpEffect (slotInstr pc) s) (nextSlot pc) := by
  obtain ⟨ht, hf, hw, hr⟩ := h
  interval_cases pc <;> simp_all [LinesAt, nextSlot, endsAt]

/-- CURSOR advances in slot 24 alone (R121). -/
theorem cursor_slot (s : State) {pc : Nat} (hp : pc ≤ 29) :
    (microOpEffect (slotInstr pc) s).cursor = if pc = 24 then s.cursor + 1 else s.cursor := by
  interval_cases pc <;> simp

/-- WORD is loaded in slot 3 alone (R118). -/
theorem word_slot (s : State) {pc : Nat} (hp : pc ≤ 29) :
    (microOpEffect (slotInstr pc) s).word = if pc = 3 then some s.romAtCursor else s.word := by
  interval_cases pc <;> simp

/-- LOAD.W stands in slot 3 alone (R78). -/
theorem slotInstr_loadW : ∀ pc ≤ 29, ∀ last, slotInstr pc = .loadW last → pc = 3 := by decide

/-- A byte of WORD is sent only in a tick sequence and after its LOAD.W (R78). -/
theorem slotInstr_outByte :
    ∀ pc ≤ 29, ∀ j last, slotInstr pc = .outLoByte j last ∨ slotInstr pc = .outHiByte j last → 4 ≤ pc ∧ pc ≤ 25 := by
  decide

end Sys2Proof.Machine
end

section
/-! PROOFS. The sequence invariant, kept by every event together with `ControlInv`; so every run keeps `BlockInv`. -/

namespace Sys2Proof.Machine

/-! ### What the table and WORD hold -/

/-- ARM follows BUILD, so an armed block holds a value in every ROM entry (R44). -/
theorem armed_entry_isSome {s : State} (h : ControlInv s) (ha : s.armed = true) {k : Nat} (hk : k < 64) :
    (s.rom.read k).isSome = true := by
  obtain ⟨⟨-, htable, -⟩, ⟨harm, -⟩, -⟩ := h
  obtain ⟨-, hread, -⟩ := htable (harm ha).1
  exact hread k hk

/-- LOAD.W from an entry that holds a value reads that value. -/
theorem some_romAtCursor {s : State} (h : (s.rom.read s.cursor.toNat).isSome = true) :
    some s.romAtCursor = s.rom.read s.cursor.toNat := by
  obtain ⟨w, hw⟩ := Option.isSome_iff_exists.1 h
  simp [State.romAtCursor, hw]

/-! ### What retiring the micro-op of a slot leaves -/

/-- What ends a micro-op writes INITD, SERVICED, BUSY, PENDING, SEQ_PC and the trace at most (R109, R122). -/
@[simp] theorem retired_frame (s u : State) (last : Bool) :
    (retired s u last).rom = u.rom ∧ (retired s u last).cursor = u.cursor ∧ (retired s u last).word = u.word
      ∧ (retired s u last).armed = u.armed ∧ (retired s u last).faulted = u.faulted
      ∧ (retired s u last).trig = u.trig ∧ (retired s u last).fqUd = u.fqUd ∧ (retired s u last).wClk = u.wClk
      ∧ (retired s u last).resetLine = u.resetLine := by
  cases last <;> simp [retired]

/-- A sequence goes on, unless its END finds no tick pending (R122). -/
theorem retired_busy (s u : State) (last : Bool) :
    (retired s u last).busy = (u.busy && (!last || s.pending)) := by
  cases last <;> simp [retired]

/-- END at slot 25 alone counts a serviced tick (R122). -/
theorem retired_serviced (s u : State) :
    (retired s u (endsAt s.seqPc.toNat)).serviced = u.serviced + if s.seqPc.toNat = 25 then 1 else 0 := by
  by_cases h : s.seqPc.toNat = 25
  · simp [h, endsAt, retired]
  · cases he : endsAt s.seqPc.toNat <;> simp [h, retired]

theorem endsAt_iff (pc : Nat) : endsAt pc = true ↔ pc = 25 ∨ pc = 29 := by simp [endsAt]

theorem nextSlot_end {pc : Nat} (h : pc = 25 ∨ pc = 29) : nextSlot pc = 0 := if_pos ((endsAt_iff pc).2 h)

theorem nextSlot_inner {pc : Nat} (h : ¬ (pc = 25 ∨ pc = 29)) : nextSlot pc = pc + 1 := if_neg (mt (endsAt_iff pc).1 h)

/-- SEQ_PC moves to the next slot (R109, R122). -/
theorem retired_seqPc (s u : State) (hp : s.seqPc.toNat ≤ 29) :
    (retired s u (endsAt s.seqPc.toNat)).seqPc.toNat = nextSlot s.seqPc.toNat := by
  unfold nextSlot
  split
  · next he => simp [he, retired]
  · next he =>
    have hlt : s.seqPc.toNat + 1 < 32 := by omega
    simp [he, retired, Nat.mod_eq_of_lt hlt]

/-- The state after the micro-op in the slot of `s`. -/
def afterSlot (s : State) : State :=
  retired s (microOpEffect (slotInstr s.seqPc.toNat) s) (endsAt s.seqPc.toNat)

/-- A running sequencer in a slot of R78 does what the slot says. -/
theorem sequencerOutcome_slot {s t : State} (ho : SequencerOutcome s t) (hr : s.running) (hm : s.mp = microProgram)
    (hp : s.seqPc.toNat ≤ 29) : t = afterSlot s := by
  have hd : decodeMicroOp s.fetch = .ok (slotInstr s.seqPc.toNat) := by rw [fetch_program hm, decode_program _ hp]
  cases ho with
  | stopped h => exact absurd hr h
  | illegal _ e he => rw [hd] at he; cases he
  | microOp _ i last hi hl =>
    rw [hd] at hi
    cases hi
    rw [slotInstr_endBit _ hp] at hl
    cases hl
    rfl

@[simp] theorem afterSlot_frame (s : State) :
    (afterSlot s).cfg = s.cfg ∧ (afterSlot s).mp = s.mp ∧ (afterSlot s).rom = s.rom ∧ (afterSlot s).armed = s.armed
      ∧ (afterSlot s).faulted = s.faulted := by
  simp [afterSlot]

theorem afterSlot_seqPc {s : State} (hp : s.seqPc.toNat ≤ 29) : (afterSlot s).seqPc.toNat = nextSlot s.seqPc.toNat :=
  retired_seqPc s _ hp

theorem afterSlot_busy (s : State) : (afterSlot s).busy = (s.busy && (!endsAt s.seqPc.toNat || s.pending)) := by
  simp [afterSlot, retired_busy]

theorem afterSlot_serviced (s : State) :
    (afterSlot s).serviced = s.serviced + if s.seqPc.toNat = 25 then 1 else 0 := by
  simp [afterSlot, retired_serviced]

theorem afterSlot_cursor {s : State} (hp : s.seqPc.toNat ≤ 29) :
    (afterSlot s).cursor = if s.seqPc.toNat = 24 then s.cursor + 1 else s.cursor := by
  rw [← cursor_slot s hp]
  simp [afterSlot]

theorem afterSlot_word {s : State} (hp : s.seqPc.toNat ≤ 29) :
    (afterSlot s).word = if s.seqPc.toNat = 3 then some s.romAtCursor else s.word := by
  rw [← word_slot s hp]
  simp [afterSlot]

/-- The CUR.INC count grows in slot 24 alone (R42). -/
theorem advances_afterSlot {s : State} (hb : s.busy = true) (hp : s.seqPc.toNat ≤ 29) :
    (afterSlot s).advances = s.advances + if s.seqPc.toNat = 24 then 1 else 0 := by
  simp only [State.advances, afterSlot_serviced, afterSlot_busy, afterSlot_seqPc hp, hb, Bool.true_and, true_and]
  by_cases he : s.seqPc.toNat = 25 ∨ s.seqPc.toNat = 29
  · rw [nextSlot_end he]
    have hne : s.seqPc.toNat ≠ 24 := by omega
    simp [hne]
  · rw [nextSlot_inner he, Bool.eq_false_iff.2 (mt (endsAt_iff _).1 he)]
    split_ifs <;> simp_all

/-- The LOAD.W count grows in slot 3 alone. -/
theorem loads_afterSlot {s : State} (hb : s.busy = true) (hp : s.seqPc.toNat ≤ 29) :
    (afterSlot s).loads = s.loads + if s.seqPc.toNat = 3 then 1 else 0 := by
  simp only [State.loads, State.inTick, afterSlot_serviced, afterSlot_busy, afterSlot_seqPc hp, hb, Bool.true_and,
    true_and]
  by_cases he : s.seqPc.toNat = 25 ∨ s.seqPc.toNat = 29
  · rw [nextSlot_end he]
    split_ifs <;> omega
  · rw [nextSlot_inner he, Bool.eq_false_iff.2 (mt (endsAt_iff _).1 he)]
    simp only [Bool.not_false, Bool.true_or, true_and]
    split_ifs <;> omega

/-- The lines after the micro-op of a slot are as the next slot finds them. -/
theorem linesAt_afterSlot {s : State} (hp : s.seqPc.toNat ≤ 29) (h : LinesAt s s.seqPc.toNat) :
    LinesAt (afterSlot s) (nextSlot s.seqPc.toNat) := by
  simpa [afterSlot, LinesAt] using linesAt_slot hp h

/-! ### The events -/

/-- WORD after a slot is the entry of the last LOAD.W: in slot 3 the one CURSOR points at, else the one it was (R66). -/
theorem word_afterSlot {s : State} (h : BlockInv s) (hb : s.busy = true) (hpos : 0 < (afterSlot s).loads) :
    (afterSlot s).word = s.rom.read ((s.cfg.cursorInit.toNat + (afterSlot s).loads - 1) % 64) := by
  obtain ⟨hc, -, -, hrun, -, hcur, hword⟩ := h
  obtain ⟨-, hp, -, harm⟩ := hrun hb
  rw [loads_afterSlot hb hp] at hpos ⊢
  rw [afterSlot_word hp]
  by_cases h3 : s.seqPc.toNat = 3
  · have hl : s.loads = s.serviced := by simp [State.loads, h3]
    have ha : s.advances = s.serviced := by simp [State.advances, h3]
    rw [if_pos h3, if_pos h3, some_romAtCursor (armed_entry_isSome hc (harm.2 (by omega)) s.cursor.isLt), hcur, ha, hl]
    rfl
  · rw [if_neg h3] at hpos ⊢
    rw [if_neg h3]
    exact hword hpos

/-- A running sequencer keeps the sequence invariant: the lines by `linesAt_afterSlot`, CURSOR and WORD by the counts of
CUR.INC and LOAD.W; only an armed block has a tick pending, so only a tick sequence starts again at its END. -/
theorem sequenceInv_afterSlot {s : State} (h : BlockInv s) (hb : s.busy = true) : SequenceInv (afterSlot s) := by
  have ⟨⟨_, ⟨_, hpend, _⟩, _⟩, hm, _, hrun, hserv, hcur, _⟩ := h
  obtain ⟨hf, hp, hlines, harm⟩ := hrun hb
  have hl := linesAt_afterSlot hp hlines
  refine ⟨by simp [hm], fun hi => ?idle, fun hi => ?busy, fun ha => ?serviced, ?cursor, fun hpos => ?word⟩
  case idle =>
    have he : endsAt s.seqPc.toNat = true := by simp_all [afterSlot_busy]
    rwa [nextSlot_end ((endsAt_iff _).1 he)] at hl
  case busy =>
    rw [afterSlot_seqPc hp]
    by_cases he : s.seqPc.toNat = 25 ∨ s.seqPc.toNat = 29
    · have hpe : s.pending = true := by simpa [afterSlot_busy, hb, (endsAt_iff _).2 he] using hi
      refine ⟨by simp [hf], ?_, hl, ?_⟩ <;> simp [nextSlot_end he, (hpend hpe).2]
    · refine ⟨by simp [hf], ?_, hl, ?_⟩ <;> simp only [nextSlot_inner he, afterSlot_frame, harm] <;> omega
  case serviced =>
    have ha' : s.armed = false := by simpa using ha
    have hne : s.seqPc.toNat ≠ 25 := fun he => by simp [harm.2 he.le] at ha'
    simp [afterSlot_serviced, hserv ha', hne]
  case cursor =>
    rw [advances_afterSlot hb hp, afterSlot_cursor hp, (afterSlot_frame s).1]
    split_ifs
    · have h1 : (1 : BitVec 6).toNat = 1 := rfl
      rw [BitVec.toNat_add, hcur, h1]
      omega
    · exact hcur
  case word => simpa using word_afterSlot h hb hpos

theorem sequenceInv_pwrReset {s : State} (hm : s.mp = microProgram) : SequenceInv s.pwrReset := by
  have hlt := s.cfg.cursorInit.isLt
  refine ⟨hm, fun _ => by simp [LinesAt], (nomatch ·), fun _ => rfl, ?_, fun hpos => ?_⟩
  · simp [State.advances, Nat.mod_eq_of_lt hlt]
  · simp [State.loads] at hpos

theorem sequenceInv_tick {s t : State} (h : SequenceInv s) (ho : TickOutcome s t) : SequenceInv t := by
  cases ho with
  | ignored => exact h
  | accepted hr ha =>
    obtain ⟨hm, hidle, -, hserv, hcur, hword⟩ := h
    have hadv : s.tickTaken.advances = s.advances := by simp [State.advances, State.tickTaken, hr.1]
    have hloads : s.tickTaken.loads = s.loads := by simp [State.loads, State.tickTaken, hr.1]
    refine ⟨hm, (nomatch ·), fun _ => ⟨hr.2, by simp [State.tickTaken], hidle hr.1, ?_⟩, hserv, ?_, ?_⟩
    · simp [State.tickTaken, ha]
    · rw [hadv]; exact hcur
    · rw [hloads]; exact hword
  | delayed => exact h
  | lost => exact h

theorem sequenceInv_command {s t : State} (h : SequenceInv s) (ho : CommandOutcome s t) : SequenceInv t := by
  have ⟨hm, hidle, hrun, hserv, hcur, hword⟩ := h
  cases ho with
  | unchanged => exact h
  | raised hr code info =>
    rw [raise_eq_faultRecorded hr.2]
    exact ⟨hm, hidle, fun hb => absurd hb (by simp [State.faultRecorded, hr.1]), hserv, hcur, hword⟩
  | committed hw hc =>
    obtain ⟨⟨hb, -⟩, ha, -⟩ := hw
    have hloads : s.commitTable.loads = 0 := by
      calc s.commitTable.loads = s.loads := rfl
        _ = 0 := by simp [State.loads, State.inTick, hb, hserv ha]
    exact ⟨hm, hidle, hrun, hserv, hcur, fun hpos => by omega⟩
  | initStarted hr ha =>
    have hadv : (s.startSequence initEntry).advances = s.advances := by simp [State.advances, hr.1, initEntry]
    have hloads : (s.startSequence initEntry).loads = 0 := by simp [State.loads, initEntry, hserv ha]
    refine ⟨hm, (nomatch ·), fun _ => ⟨hr.2, by simp [initEntry], ?_, by simp [initEntry, ha]⟩, hserv, ?_,
      fun hpos => by omega⟩
    · simpa [LinesAt, initEntry] using hidle hr.1
    · rw [hadv]; exact hcur
  | nowArmed hr =>
    exact ⟨hm, hidle, fun hb => absurd hb (by simp [hr.1]), (nomatch ·), hcur, hword⟩

theorem blockInv_sequencer {s t : State} (h : BlockInv s) (ho : SequencerOutcome s t) : BlockInv t := by
  refine ⟨controlInv_sequencer h.1 ho, ?_⟩
  by_cases hr : s.running
  · have ⟨_, hm, _, hrun, _⟩ := h
    obtain ⟨-, hp, -⟩ := hrun hr.1
    rw [sequencerOutcome_slot ho hr hm hp]
    exact sequenceInv_afterSlot h hr.1
  · cases ho with
    | stopped => exact h.2
    | illegal hr' => exact absurd hr' hr
    | microOp hr' => exact absurd hr' hr

theorem keptByEvents_blockInv : KeptByEvents BlockInv :=
  .of_outcomes (fun _ _ h => h) (fun _ _ h => h) (fun s ⟨_, hm, _⟩ => ⟨controlInv_pwrReset s, sequenceInv_pwrReset hm⟩)
    (fun _ _ ⟨hc, hs⟩ ho => ⟨controlInv_tick hc ho, sequenceInv_tick hs ho⟩)
    (fun _ _ ⟨hc, hs⟩ ho => ⟨controlInv_command hc ho, sequenceInv_command hs ho⟩) fun _ _ => blockInv_sequencer

/-- The invariant holds at power-on of every configuration with every schedule. -/
theorem blockInv_boot (c : Config) (l : List Input) : BlockInv (State.boot c l) := by
  rw [← boot_pwrReset]
  exact ⟨controlInv_pwrReset _, sequenceInv_pwrReset rfl⟩

/-- Every state that a run reaches meets the invariant of the block. -/
theorem Reaches.blockInv {c : Config} {l : List Input} {n : Nat} {t : State} (h : Reaches c l n t) : BlockInv t :=
  keptByEvents_blockInv.reaches (blockInv_boot c l) h

end Sys2Proof.Machine
end

section
/-! PROOFS. The statements of spec/10_state.md. -/

namespace Sys2Proof.Machine

/-- Settles O57, by the invariant of the block: the lines are those of slot 0 while idle, and CURSOR counts CUR.INC. -/
theorem idleLinesLowAndCursorCounts : Obligations.IdleLinesLowAndCursorCounts := by
  intro c l n t h
  obtain ⟨-, -, hidle, -, -, hcur, -⟩ := h.blockInv
  refine ⟨fun hb _ => by simpa [LinesAt] using hidle hb, ?_⟩
  rw [hcur, h.cfg_eq, State.advances, Nat.add_assoc]

/-- Settles O58: R78 reads ROM in slot 3 and WORD in slots 8 to 21, which only an armed block runs; there ROM is built, and
WORD is the entry of the last LOAD.W. -/
theorem noReadWithoutValue : Obligations.NoReadWithoutValue := by
  intro c l n t h hr last j
  obtain ⟨hc, hm, -, hrun, -, -, hword⟩ := h.blockInv
  obtain ⟨-, hp, -, harm⟩ := hrun hr.1
  rw [fetch_program hm, decode_program _ hp]
  simp only [Except.ok.injEq]
  refine ⟨fun hi => ?_, fun hi => ?_⟩
  · have h3 := slotInstr_loadW _ hp last hi
    exact armed_entry_isSome hc (harm.2 (by omega)) t.cursor.isLt
  · obtain ⟨h4, h25⟩ := slotInstr_outByte _ hp j last hi
    have hpos : 0 < t.loads := by simp [State.loads, State.inTick, hr.1, h4, h25]
    rw [hword hpos]
    exact armed_entry_isSome hc (harm.2 h25) (Nat.mod_lt _ (by omega))

/-- Settles O37, case by case: power-on, PWR_RESET, and the default CURSOR_INIT. -/
theorem resetValues : Obligations.ResetValues := by
  refine ⟨?_, rfl⟩
  rintro c s (rfl | ⟨u, rfl, rfl⟩)
  · simp [State.powerOn]
  · simp

end Sys2Proof.Machine
end

section
/-! PROOFS. Bytes of a word and the views of BUS (spec/30_encoding.md R67 to R71). -/

namespace Sys2Proof.Machine

/-! ### Bytes and lanes of a word -/

/-- byte_j as arithmetic, so byte_0 is the most significant (R68). -/
theorem toNat_byteOf (w : Word) (j : BitVec 2) :
    (byteOf w j).toNat = w.toNat / 2 ^ (8 * (3 - j.toNat)) % 256 := by
  simp [byteOf, Nat.shiftRight_eq_div_pow]

/-- A lane as arithmetic, so lane 0 is the least significant (R67). -/
theorem toNat_laneOf (w : Word) (k : BitVec 2) : (laneOf w k).toNat = w.toNat / 2 ^ (8 * k.toNat) % 256 := by
  simp [laneOf, Nat.shiftRight_eq_div_pow]

/-- The two numberings of a word's bytes run in opposite directions; 3 - j does not wrap (R68). -/
theorem byteOf_eq_laneOf (w : Word) (j : BitVec 2) : byteOf w j = laneOf w (3 - j) := by
  have hlane : (3 - j).toNat = 3 - j.toNat := BitVec.toNat_sub_of_le (by bv_omega)
  apply BitVec.eq_of_toNat_eq
  rw [toNat_byteOf, toNat_laneOf, hlane]

/-! ### BUS and the two ports -/

/-- The two fields of a byte, put on BUS, give the byte back (R71). -/
theorem busOf_highTwo_lowSix (b : Byte) : busOf (highTwo b) (lowSix b) = b := by
  calc busOf (highTwo b) (lowSix b)
      = b.extractLsb' 0 (2 + 6) := BitVec.extractLsb'_append_extractLsb'_eq_extractLsb' rfl
    _ = b := BitVec.extractLsb'_eq_self

/-- A mask on BUS acts on each of its fields alone. -/
theorem busOf_and (hi hi' : BitVec 2) (lo lo' : BitVec 6) :
    busOf hi lo &&& busOf hi' lo' = busOf (hi &&& hi') (lo &&& lo') :=
  BitVec.and_append

/-- The port of DATA_LO is bits 5:0 of BUS in their place (R70, R71). -/
theorem State.dataLoPort_eq_bus_and (s : State) : s.dataLoPort = s.bus &&& 0x3F := by
  calc s.dataLoPort
      = busOf 0#2 s.dataLo := BitVec.setWidth_eq_append (by decide)
    _ = busOf s.dataHi s.dataLo &&& busOf 0#2 (BitVec.allOnes 6) := by rw [busOf_and, BitVec.and_zero, BitVec.and_allOnes]
    _ = s.bus &&& 0x3F := rfl

/-- The port of DATA_HI is bits 7:6 of BUS in their place (R70, R71). -/
theorem State.dataHiPort_eq_bus_and (s : State) : s.dataHiPort = s.bus &&& 0xC0 := by
  calc s.dataHiPort
      = busOf s.dataHi 0#6 := rfl
    _ = busOf s.dataHi s.dataLo &&& busOf (BitVec.allOnes 2) 0#6 := by rw [busOf_and, BitVec.and_zero, BitVec.and_allOnes]
    _ = s.bus &&& 0xC0 := rfl

end Sys2Proof.Machine
end

section
/-! PROOFS. The statements of spec/30_encoding.md. -/

namespace Sys2Proof.Machine

/-- Settles O5: `byteOf` and `laneOf` agree as arithmetic, BUS joins the two fields of a byte, and each port is BUS under
the mask of its field. -/
theorem transferBytesOnBus : Obligations.TransferBytesOnBus := by
  refine ⟨fun w j => ⟨toNat_byteOf w j, byteOf_eq_laneOf w j⟩, fun s b hlo hhi => ?_⟩
  have hlow : s.dataLo = lowSix b := hlo
  have hhigh : s.dataHi = highTwo b := hhi
  have hbus : s.bus = b := by rw [State.bus, hlow, hhigh, busOf_highTwo_lowSix]
  exact ⟨hbus, by rw [s.dataLoPort_eq_bus_and, hbus], by rw [s.dataHiPort_eq_bus_and, hbus]⟩

end Sys2Proof.Machine
end

section
/-! PROOFS. BUILD's checks over R95's base and R97's deviations, and what BUILD answers by them (R94 to R101). -/

namespace Sys2Proof.Machine

/-! ### ROUND -/

/-- A fraction rounds up above the cut, and at the cut when the cut is inclusive (R102). -/
theorem cutUp_iff (num den : Nat) (inclusive : Bool) (rem d : Nat) :
    cutUp ⟨num, den, inclusive⟩ rem d = true
      ↔ num * d < rem * den ∨ num * d = rem * den ∧ inclusive = true := by
  simp [cutUp]

/-- Round half up has the cut 1/2, inclusive, in every interval (R102). -/
theorem cutAt_halfUp (n : Nat) : cutAt Rounding.halfUp n = ⟨1, 2, true⟩ := rfl

/-- Round half up is floor(x + 1/2) (R102): with x = q + r/d, the fraction r/d goes up exactly when d <= 2r. -/
theorem roundQuotient_halfUp (n : Nat) {d : Nat} (hd : 0 < d) :
    roundQuotient Rounding.halfUp n d = (2 * n + d) / (2 * d) := by
  have hr : n % d < d := Nat.mod_lt n hd
  have hup : cutUp (cutAt Rounding.halfUp (n / d)) (n % d) d = true ↔ d ≤ 2 * (n % d) := by
    rw [cutAt_halfUp, cutUp_iff, and_iff_left rfl]
    omega
  have hsplit : (2 * n + d) / (2 * d) = (2 * (n % d) + d) / (2 * d) + n / d := by
    rw [← Nat.add_mul_div_left _ _ (by omega : 0 < 2 * d)]
    congr 1
    have := Nat.div_add_mod n d
    linarith
  have hfrac : (2 * (n % d) + d) / (2 * d) = if d ≤ 2 * (n % d) then 1 else 0 := by
    split
    · exact Nat.div_eq_of_lt_le (by omega) (by omega)
    · exact Nat.div_eq_of_lt (by omega)
  rw [roundQuotient, hsplit, hfrac]
  simp only [hup]
  split_ifs <;> omega

/-! ### The checks -/

/-- The check of entry `i` of the upper half (R98). -/
theorem entryFault_upper (c : Config) (i : Fin 32) :
    entryFault c (baseWord c) i
      = if 4294967295 < c.baseOf + c.devOf i then some (.cfgEntryOverflow, BitVec.ofNat 6 i) else none := by
  have hcheck : entryValue c (baseWord c) i > maxWord ↔ 4294967295 < c.baseOf + c.devOf i := by
    rw [entryValue_upper _ _ i.isLt, deviation_eq_devOf, baseWord_eq_baseOf, maxWord]
    omega
  simp only [entryFault, i.isLt, if_true, hcheck]

/-- The check of entry `i + 32` of the lower half (R99). -/
theorem entryFault_lower (c : Config) (i : Fin 32) :
    entryFault c (baseWord c) (i + 32)
      = if c.baseOf < c.devOf i then some (.cfgEntryUnderflow, BitVec.ofNat 6 (i + 32)) else none := by
  have hcheck : entryValue c (baseWord c) (i + 32) < 0 ↔ c.baseOf < c.devOf i := by
    rw [entryValue_lower, deviation_eq_devOf, baseWord_eq_baseOf]
    omega
  have hlow : ¬ (i : Nat) + 32 < 32 := by omega
  simp only [entryFault, hlow, if_false, hcheck]

/-- An entry's index lies in the upper half or in the lower (R98, R99). -/
theorem entry_upper_or_lower {k : Nat} (hk : k < 64) : (∃ i : Fin 32, k = i) ∨ ∃ i : Fin 32, k = i + 32 := by
  by_cases hu : k < 32
  · exact .inl ⟨⟨k, hu⟩, rfl⟩
  · exact .inr ⟨⟨k - 32, by omega⟩, by simp only; omega⟩

/-- Only a clock of 0 or a scale that is not positive is an invalid configuration (R94). -/
theorem buildFault_invalid {c : Config} (h : c.clockHz = 0 ∨ c.devScale ≤ 0) :
    buildFault c = some (.cfgInvalid, 0) := by
  rw [← Rat.num_nonpos] at h
  rw [buildFault, if_pos h]

section
variable {c : Config} (hclock : 0 < c.clockHz) (hscale : 0 < c.devScale)
include hclock hscale

/-- A valid configuration passes the first check (R94), so the base's range comes next, then the entries (R100). -/
theorem buildFault_valid :
    buildFault c = if 4294967295 < c.baseOf then some (.cfgBaseRange, 0)
      else (List.range 64).findSome? (entryFault c (baseWord c)) := by
  have hpass : ¬ (c.clockHz = 0 ∨ c.devScale.num ≤ 0) := by
    have := Rat.num_pos.2 hscale
    omega
  rw [buildFault, if_neg hpass]
  rfl

/-- The first failing entry is the one that BUILD reports (R100). -/
theorem buildFault_firstEntry (hbase : c.baseOf ≤ 4294967295) {k : Nat} (hk : k < 64) {e : FaultCode × BitVec 6}
    (hfail : entryFault c (baseWord c) k = some e) (hpass : ∀ j < k, entryFault c (baseWord c) j = none) :
    buildFault c = some e := by
  have hrange : List.range 64 = List.range k ++ k :: List.range' (k + 1) (63 - k) := by
    calc List.range 64 = List.range' 0 (k + (64 - k)) := by rw [List.range_eq_range', Nat.add_sub_cancel' hk.le]
      _ = List.range' 0 k ++ List.range' (0 + k) (64 - k) := List.range'_append_1.symm
      _ = _ := by rw [List.range_eq_range', Nat.zero_add, ← List.range'_succ]; congr 2; omega
  rw [buildFault_valid hclock hscale, if_neg (by omega)]
  exact List.findSome?_eq_some_iff.2
    ⟨_, k, _, hrange, hfail, fun j hj => hpass j (List.mem_range.1 hj)⟩

end

/-- A configuration that passes every check raises none (R94, R96, R98, R99). -/
theorem buildFault_buildable {c : Config} (h : c.buildable) : buildFault c = none := by
  obtain ⟨hclock, hscale, hbase, hentries⟩ := h
  rw [buildFault_valid hclock hscale, if_neg (by omega), List.findSome?_eq_none_iff]
  intro k hk
  obtain ⟨i, rfl⟩ | ⟨i, rfl⟩ := entry_upper_or_lower (List.mem_range.1 hk) <;> obtain ⟨hup, hlow⟩ := hentries i
  · rw [entryFault_upper, if_neg (by omega)]
  · rw [entryFault_lower, if_neg (by omega)]

/-! ### What BUILD answers -/

/-- A first BUILD with a failing check records that check's fault alone (R100, R178). -/
theorem exec_build_faults {s : State} (h : s.awaitsBuild) {code : FaultCode} {info : BitVec 6}
    (hfault : buildFault s.cfg = some (code, info)) :
    exec .build s = .next (s.faultRecorded code.toCode code info) := by
  rw [exec_build_awaited h, State.buildTable, hfault, ← raise_eq_faultRecorded h.1.2]

/-- A first BUILD without a failing check commits (R101). -/
theorem exec_build_commits {s : State} (h : s.awaitsBuild) (hfault : buildFault s.cfg = none) :
    exec .build s = .next s.commitTable := by
  rw [exec_build_awaited h, State.buildTable, hfault]

/-- The commit leaves base + DEV[i] as a 32-bit word in the upper half (R98, R101). -/
theorem commitTable_read_upper (s : State) (i : Fin 32) :
    s.commitTable.rom.read i = some (BitVec.ofNat 32 (s.cfg.baseOf + s.cfg.devOf i)) := by
  rw [State.commitTable_rom, writeTable_read, if_pos (by omega), tableWord_upper]

/-- The commit leaves base - DEV[i] in the lower half, where that does not fall below 0 (R99, R101). -/
theorem commitTable_read_lower (s : State) (i : Fin 32) (h : s.cfg.devOf i ≤ s.cfg.baseOf) :
    s.commitTable.rom.read (i + 32) = some (BitVec.ofNat 32 (s.cfg.baseOf - s.cfg.devOf i)) := by
  rw [State.commitTable_rom, writeTable_read, if_pos (by omega), tableWord_lower _ _ h]

/-- Raising a fault does not build the table. -/
@[simp] theorem State.raise_built (s : State) (code : FaultCode) (info : BitVec 6) :
    (s.raise code info).built = s.built := by
  rw [State.raise_eq]; split <;> rfl

end Sys2Proof.Machine
end

section
/-! PROOFS. The statements of spec/40_table_builder.md. -/

namespace Sys2Proof.Machine

/-- Settles O21: no check fails, so BUILD commits, and each half of the table is read back. -/
theorem buildWritesTable : Obligations.BuildWritesTable := by
  intro s h hb
  have ⟨_, _, _, hentries⟩ := hb
  refine ⟨s.commitTable, exec_build_commits h (buildFault_buildable hb), commitTable_eq s, fun i => ?_, fun k hk => ?_⟩
  · obtain ⟨-, hlow⟩ := hentries i
    exact ⟨commitTable_read_upper s i, commitTable_read_lower s i hlow⟩
  · rw [State.commitTable_rom, writeTable_read, if_neg (by omega)]

/-- Settles O22, check by check in R100's order; the entries before the first failing one pass their own checks. -/
theorem buildReportsFirstFailure : Obligations.BuildReportsFirstFailure := by
  intro s h
  refine ⟨fun hinvalid => exec_build_faults h (buildFault_invalid hinvalid), fun hclock hscale =>
    ⟨fun hrange => ?base, fun hbase => ⟨fun k hk hbefore => ?upper, fun hupper k hk hbefore => ?lower⟩⟩⟩
  case base => exact exec_build_faults h (by rw [buildFault_valid hclock hscale, if_pos hrange])
  case upper =>
    refine exec_build_faults h (code := .cfgEntryOverflow)
      (buildFault_firstEntry hclock hscale hbase (by omega : k.val < 64) ?_ fun j hj => ?_)
    · rw [entryFault_upper, if_pos hk]
    · obtain ⟨i, rfl⟩ : ∃ i : Fin 32, j = i := ⟨⟨j, by omega⟩, rfl⟩
      rw [entryFault_upper, if_neg (hbefore i hj).not_gt]
  case lower =>
    refine exec_build_faults h (code := .cfgEntryUnderflow)
      (buildFault_firstEntry hclock hscale hbase (by omega : k.val + 32 < 64) ?_ fun j hj => ?_)
    · rw [entryFault_lower, if_pos hk]
    · obtain ⟨i, rfl⟩ | ⟨i, rfl⟩ := entry_upper_or_lower (by omega : j < 64)
      · rw [entryFault_upper, if_neg (hupper i).not_gt]
      · rw [entryFault_lower, if_neg (hbefore i (by omega)).not_gt]

/-- Settles O23: BUILD is accepted, and the test of BUILT comes before the computation. -/
theorem rebuildFaults : Obligations.RebuildFaults := by
  intro s ⟨hb, hf⟩ hbuilt harmed
  simp [exec, execBuild, State.accept_eq, hb, hf, hbuilt, harmed, raise_eq_faultRecorded hf, FaultCode.toCode]

/-- Settles O24: of all that a command can do, only the commit sets BUILT, and the table it writes is symmetric. -/
theorem builtTableIsSymmetric : Obligations.BuiltTableIsSymmetric := by
  intro s t hs he ht i hi
  cases (exec_command_outcome (i := .build) rfl s).of_eq he with
  | unchanged => simp [hs] at ht
  | raised => simp [hs] at ht
  | initStarted => simp [hs] at ht
  | nowArmed _ hb => simp [hs] at hb
  | committed _ hc =>
    refine ⟨_, _, _, ?_, ?_, State.commitTable_base s, tableWord_symmetric hc ⟨i, hi⟩⟩ <;>
      rw [State.commitTable_rom, writeTable_read, if_pos (by omega)]

/-- DEV[i] of the worked example is REF[i] * 5/2 rounded half up (R97, R108). -/
theorem devOf_fiveHalves {c : Config} (hscale : c.devScale = 5 / 2) (hround : c.rounding = Rounding.halfUp) (i : Fin 32) :
    c.devOf i = (c.ref[i] * 5 + 1) / 2 := by
  have hnum : (5 / 2 : Rat).num.toNat = 5 := congrArg Int.toNat (by norm_num : (5 / 2 : Rat).num = 5)
  have hden : (5 / 2 : Rat).den = 2 := by norm_num
  rw [Config.devOf, hscale, hround, hnum, hden, roundQuotient_halfUp _ (by decide)]
  omega

/-- Settles O25: with base and DEV[i] as numbers every check passes, so BUILD commits base, base + DEV[8] and
base - DEV[8]. -/
theorem workedExampleTable : Obligations.WorkedExampleTable := by
  intro s h hcarrier hclock hscale hround h0 h8 href
  have hbase : s.cfg.baseOf = 687194767 := by
    rw [Config.baseOf, hcarrier, hclock, hround, roundQuotient_halfUp _ (by decide)]
  have hdev := devOf_fiveHalves hscale hround
  have hdev0 : s.cfg.devOf 0 = 0 := by
    rw [hdev, show s.cfg.ref[(0 : Fin 32)] = 0 from h0]
  have hdev8 : s.cfg.devOf 8 = 60740 := by
    rw [hdev, show s.cfg.ref[(8 : Fin 32)] = 24296 from h8]
  have hfits : ∀ i, s.cfg.baseOf + s.cfg.devOf i ≤ 4294967295 ∧ s.cfg.devOf i ≤ s.cfg.baseOf := fun i => by
    have := href i
    rw [hbase, hdev]
    omega
  have hbuildable : s.cfg.buildable := ⟨by omega, by rw [hscale]; norm_num, by omega, hfits⟩
  refine ⟨hbase, hdev0, hdev8, s.commitTable, exec_build_commits h (buildFault_buildable hbuildable), rfl, ?_, ?_, ?_, ?_, ?_⟩
  · rw [State.commitTable_base, baseWord_eq_baseOf, hbase]; rfl
  · exact (commitTable_read_upper s 0).trans (by rw [hbase, hdev0]; rfl)
  · exact (commitTable_read_lower s 0 (hfits 0).2).trans (by rw [hbase, hdev0]; rfl)
  · exact (commitTable_read_upper s 8).trans (by rw [hbase, hdev8]; rfl)
  · exact (commitTable_read_lower s 8 (hfits 8).2).trans (by rw [hbase, hdev8]; rfl)

end Sys2Proof.Machine
end

section
/-! PROOFS. A micro-op as its effect and what ends it, in the terms of `Safety.lean` (spec/41_pin_microops.md R109, R122). -/

namespace Sys2Proof.Machine

/-- A micro-op leaves its effect, retired from the slot it stood at (R109). -/
theorem exec_microOp_retired {i : Instr} {last : Bool} (h : i.endBit = some last) (s : State) :
    exec i s = .next (retired s (microOpEffect i s) last) := by
  rw [exec_microOp h, retire_eq_retired (s := s) (by simp) (by simp)]

/-- A micro-op given another END bit has that END bit (R76). -/
theorem withEnd_endBit {i : Instr} (h : i.isMicroOp = true) (last : Bool) : (withEnd last i).endBit = some last := by
  cases i <;> cases h <;> rfl

/-- The END bit is no part of the effect (R109). -/
@[simp] theorem microOpEffect_withEnd (i : Instr) (last : Bool) (s : State) :
    microOpEffect (withEnd last i) s = microOpEffect i s := by
  cases i <;> rfl

/-- What END adds, field by field, with the two END slots told apart as values of SEQ_PC (R122). -/
theorem retired_end_eq {s u : State} (hp : u.pending = s.pending) :
    retired s u true =
      { u with
        initd := u.initd || s.seqPc == 29
        serviced := if s.seqPc = 25 then u.serviced + 1 else u.serviced
        pending := false
        busy := if u.pending = true then u.busy else false
        seqPc := 0
        trace := if u.pending = true then u.trace ++ [.tickAccepted] else u.trace } := by
  have h29 : (s.seqPc == 29#5) = decide (s.seqPc.toNat = 29) := by simp [beq_eq_decide, ← BitVec.toNat_inj]
  have h25 : s.seqPc = 25#5 ↔ s.seqPc.toNat = 25 := by simp [← BitVec.toNat_inj]
  cases hpend : s.pending <;> by_cases hs : s.seqPc.toNat = 25 <;> simp [retired, h29, h25, hp, hpend, hs]

end Sys2Proof.Machine
end

section
/-! PROOFS. An illegal micro-op: the words, the fault, and that no run records it (R77, R78, R123, R175). -/

namespace Sys2Proof.Machine

/-! ### The code ILLEGAL_MICROOP -/

/-- Code 9 is ILLEGAL_MICROOP's alone (R175). -/
theorem FaultCode.toCode_eq_nine (code : FaultCode) : code.toCode = 9 ↔ code = .illegalMicroop := by
  cases code <;> decide

theorem raise_faultCode_ne_nine {s : State} (h : s.faultCode ≠ 9) {code : FaultCode} (hc : code ≠ .illegalMicroop)
    (info : BitVec 6) : (s.raise code info).faultCode ≠ 9 := by
  rw [State.raise_eq]
  split
  · exact h
  · exact mt code.toCode_eq_nine.1 hc

/-- The checks of BUILD report causes of their own (R94, R96, R98, R99). -/
theorem buildFault_ne_illegalMicroop {c : Config} {code : FaultCode} {info : BitVec 6}
    (h : buildFault c = some (code, info)) : code ≠ .illegalMicroop := by
  rintro rfl
  unfold buildFault at h
  split at h
  · cases h
  split at h
  · cases h
  obtain ⟨k, -, hk⟩ := List.exists_of_findSome?_eq_some h
  unfold entryFault at hk
  split at hk <;> split at hk <;> cases hk

/-- A command that is held or ignored records nothing, so its own effect decides (R148, R149). -/
theorem accept_faultCode_ne_nine {s : State} (h : s.faultCode ≠ 9) {act : State → State} (ha : (act s).faultCode ≠ 9) :
    (s.accept act).faultCode ≠ 9 := by
  rw [State.accept_eq]
  split
  · exact ha
  · exact h

/-- No command records ILLEGAL_MICROOP (R123). -/
theorem exec_command_faultCode_ne_nine {i : Instr} (hi : i.isMicroOp = false) {s : State} (h : s.faultCode ≠ 9) :
    Yields (exec i s) (·.faultCode ≠ 9) := by
  cases i <;> cases hi <;> refine (yields_next _ _).2 (accept_faultCode_ne_nine h ?_)
  case nop => exact h
  case build =>
    split
    · exact raise_faultCode_ne_nine h (by decide) _
    split
    · exact raise_faultCode_ne_nine h (by decide) _
    rcases s.buildTable_cases with ⟨code, info, hf, e⟩ | ⟨-, e⟩ <;> rw [e]
    · exact raise_faultCode_ne_nine h (buildFault_ne_illegalMicroop hf) info
    · exact h
  case ddsInit =>
    split
    · exact raise_faultCode_ne_nine h (by decide) _
    · exact h
  case arm =>
    split
    · exact raise_faultCode_ne_nine h (by decide) _
    split
    · exact h
    · exact raise_faultCode_ne_nine h (by decide) _

theorem tickOutcome_faultCode {s t : State} (ho : TickOutcome s t) : t.faultCode = s.faultCode := by
  cases ho <;> rfl

/-! ### The slots and the runs of R78's micro-program -/

/-- Slots 30 and 31 hold the reserved OP 0 (R78). -/
theorem decode_unusedSlot : ∀ k : Fin 32, 30 ≤ k.val → decodeMicroOp microProgram[k] = .error (.reservedOp 0) := by
  decide

/-- The illegal words of R78 are those of slots 30 and 31. -/
theorem microProgram_illegal_iff (k : Fin 32) : (∃ e, decodeMicroOp microProgram[k] = .error e) ↔ 30 ≤ k.val := by
  refine ⟨fun ⟨e, he⟩ => ?_, fun hk => ⟨_, decode_unusedSlot k hk⟩⟩
  by_contra hk
  have hok : decodeMicroOp microProgram[k] = .ok (slotInstr k) := decode_program (BitVec.ofFin k) (by simp; omega)
  rw [hok] at he
  cases he

/-- A running sequencer with an illegal word under it records the fault with its slot and does nothing else (R123). -/
theorem seqStep_illegal {s : State} {e : DecodeError} (hr : s.running) (hd : decodeMicroOp s.fetch = .error e) :
    seqStep s = .next (s.faultRecorded 9 .illegalMicroop (s.seqPc.setWidth 6)) := by
  obtain ⟨hb, hf⟩ := hr
  simp [seqStep, hb, hf, hd, raise_eq_faultRecorded hf, FaultCode.toCode]

/-- The sequencer records no fault over R78, since every slot it runs in holds a legal word. -/
theorem sequencer_faultCode {s t : State} (h : BlockInv s) (ho : SequencerOutcome s t) : t.faultCode = s.faultCode := by
  have ⟨_, hm, _, hrun, _⟩ := h
  cases ho with
  | stopped => rfl
  | illegal hr e hd =>
    obtain ⟨-, hp, -⟩ := hrun hr.1
    rw [fetch_program hm, decode_program _ hp] at hd
    cases hd
  | microOp _ i last => cases last <;> simp [retired]

/-- Every event keeps a block that runs R78 from recording ILLEGAL_MICROOP. -/
theorem keptByEvents_faultCode_ne_nine : KeptByEvents fun s => BlockInv s ∧ s.faultCode ≠ 9 where
  inputs s l h := ⟨keptByEvents_blockInv.inputs s l h.1, h.2⟩
  held s l h := ⟨keptByEvents_blockInv.held s l h.1, h.2⟩
  reset s h := ⟨keptByEvents_blockInv.reset s h.1, by simp⟩
  tick s h := ⟨keptByEvents_blockInv.tick s h.1, by rw [tickOutcome_faultCode (tick_outcome s)]; exact h.2⟩
  command s i hi h :=
    have ⟨t, e, hb⟩ := keptByEvents_blockInv.command s i hi h.1
    ⟨t, e, hb, (exec_command_faultCode_ne_nine hi h.2).of_eq e⟩
  reserved s c h :=
    ⟨keptByEvents_blockInv.reserved s c h.1, accept_faultCode_ne_nine h.2 (raise_faultCode_ne_nine h.2 (by decide) _)⟩
  sequencer s h :=
    have ⟨t, e, ho⟩ := seqStep_outcome s
    ⟨t, e, blockInv_sequencer h.1 ho, by rw [sequencer_faultCode h.1 ho]; exact h.2⟩

/-- No run records ILLEGAL_MICROOP (R123). -/
theorem Reaches.faultCode_ne_nine {c : Config} {l : List Input} {n : Nat} {t : State} (h : Reaches c l n t) :
    t.faultCode ≠ 9 :=
  (keptByEvents_faultCode_ne_nine.reaches ⟨blockInv_boot c l, by simp [State.boot, State.powerOn]⟩ h).2

end Sys2Proof.Machine
end

section
/-! PROOFS. The statements of spec/41_pin_microops.md. -/

namespace Sys2Proof.Machine

/-- Settles O18: the END bit is no part of the effect, so the two runs differ by RetireEnd alone; only an armed block has a
tick pending, and an armed block runs slots 0 to 25. -/
theorem endRetiresSequence : Obligations.EndRetiresSequence := by
  refine ⟨fun s ⟨hc, _, _, hrun, _⟩ hp => ?_, fun i s u hi hu => ?_⟩
  · obtain ⟨-, ⟨-, hpend, -⟩, -⟩ := hc
    obtain ⟨hb, ha⟩ := hpend hp
    obtain ⟨-, -, -, harm⟩ := hrun hb
    exact ⟨hb, harm.1 ha⟩
  · rw [exec_microOp_retired (withEnd_endBit hi false), microOpEffect_withEnd] at hu
    cases hu
    rw [exec_microOp_retired (withEnd_endBit hi true), microOpEffect_withEnd, retired_end_eq (by simp)]
    rfl

/-- Settles O59: R78 has a legal word in every slot that the invariant of the block lets a run step into, and no command
raises this cause. -/
theorem illegalMicroOpNeverReached : Obligations.IllegalMicroOpNeverReached := by
  refine ⟨fun s e hr hd => ?_, microProgram_illegal_iff, fun c l n t h => ⟨fun hb => ?_, h.faultCode_ne_nine⟩⟩
  · have hinfo : s.seqPc.setWidth 6 = BitVec.ofNat 6 s.seqPc.toNat := BitVec.eq_of_toNat_eq (by simp)
    rw [seqStep_illegal hr hd, hinfo]
  · obtain ⟨-, -, -, hrun, -⟩ := h.blockInv
    exact (hrun hb).2.1

/-- Settles O7, by the effect of TRIG.CLR (R112). -/
theorem trigClrDrivesZero : Obligations.TrigClrDrivesZero :=
  ⟨rfl, fun s last => ⟨by cases last <;> rfl, exec_microOp_retired (i := .trigClr last) rfl s⟩⟩

/-- Settles O9, by the effect of FQUD.CLR (R114). -/
theorem fqudClrDrivesZero : Obligations.FqudClrDrivesZero :=
  ⟨rfl, fun s last => ⟨by cases last <;> rfl, exec_microOp_retired (i := .fqudClr last) rfl s⟩⟩

/-- Settles O11, by the effect of RST.SET (R116). -/
theorem rstSetDrivesOne : Obligations.RstSetDrivesOne :=
  ⟨rfl, fun s last => ⟨by cases last <;> rfl, exec_microOp_retired (i := .rstSet last) rfl s⟩⟩

/-- Settles O17: the sum modulo 64 is the one of the 6-bit register (R121). -/
theorem cursorAdvancesModulo64 : Obligations.CursorAdvancesModulo64 := by
  refine ⟨rfl, fun s last c hc => ⟨by cases last <;> rfl, ?_⟩⟩
  have hsum : c = s.cursor + 1 := BitVec.eq_of_toNat_eq (by simp [hc])
  rw [exec_microOp_retired (i := .curInc last) rfl, hsum]
  rfl

end Sys2Proof.Machine
end

section
/-! PROOFS. What a busy or halted block does in one step, and what a TICK does (spec/42_tick_sequence.md R127 to R132,
spec/43_init_and_arm.md R148, R149). -/

namespace Sys2Proof.Machine

/-! ### Commands on a block that is busy or halted -/

/-- A command does nothing while it is held or ignored (R148, R149). -/
theorem exec_command_of_not_ready {i : Instr} (hi : i.isMicroOp = false) {s : State} (h : ¬ s.ready) :
    exec i s = .next s := by
  obtain ⟨t, e, ho⟩ := exec_command_outcome hi s
  rw [e]
  cases ho with
  | unchanged => rfl
  | raised hr => exact absurd hr h
  | committed hw => exact absurd hw.1 h
  | initStarted hr => exact absurd hr h
  | nowArmed hr => exact absurd hr h

theorem hostCommand_of_not_ready (c : Cmd) {s : State} (h : ¬ s.ready) : hostCommand c s = .next s := by
  unfold hostCommand
  split
  · next i hi => exact exec_command_of_not_ready (decodeCommand_not_microOp hi) h
  · rw [State.reservedCommand, State.accept_eq, if_neg h]

/-! ### The TICK -/

/-- Before ARM and after a fault a TICK does nothing (R128, R129). -/
theorem tick_ignored {s : State} (h : s.faulted = true ∨ s.armed = false) : s.tick = s := by
  rcases s.tick_cases with ⟨-, e⟩ | ⟨hf, ha, -⟩ | ⟨hf, ha, -⟩
  · exact e
  all_goals simp [hf, ha] at h

/-- An idle armed block takes the TICK (R127). -/
theorem tick_accepted {s : State} (hr : s.ready) (ha : s.armed = true) : s.tick = s.tickTaken := by
  obtain ⟨hb, hf⟩ := hr
  simp only [State.tick, hb, hf, ha]
  rfl

/-- A TICK while a sequence runs in an armed block is an overrun (R130). -/
theorem tick_overrun {s : State} (hr : s.running) (ha : s.armed = true) : s.tick = s.overrunTick := by
  obtain ⟨hb, hf⟩ := hr
  simp [State.tick, hb, hf, ha]

/-- An overrun under Delay is held while none is held yet (R131). -/
theorem overrunTick_delay_free {s : State} (ho : s.cfg.overrun = .delay) (hp : s.pending = false) :
    s.overrunTick = s.tickHeld := by
  simp [State.overrunTick, State.overrunPolicy, State.holdTick, ho, hp, State.tickHeld, State.note]

/-- An overrun under Delay is lost while one is held (R131). -/
theorem overrunTick_delay_full {s : State} (ho : s.cfg.overrun = .delay) (hp : s.pending = true) :
    s.overrunTick = s.tickLost := by
  simp [State.overrunTick, State.overrunPolicy, State.holdTick, ho, hp, State.tickLost, State.loseTick, State.note]

/-- An overrun under Drop is lost (R132). -/
theorem overrunTick_drop {s : State} (ho : s.cfg.overrun = .drop) : s.overrunTick = s.tickLost := by
  simp [State.overrunTick, State.overrunPolicy, ho, State.tickLost, State.loseTick, State.note]

/-- A TICK at the front of the schedule arrives in this step, unless a held command goes first (R148). -/
theorem step_tick {s : State} {rest : List Input} (h : s.inputs = .tick :: rest) (hp : s.held = [] ∨ s.running) :
    step s = .next { s with inputs := rest }.tick := by
  have hport : (s.portOpen && !s.held.isEmpty) = false := by
    rcases hp with hh | ⟨hb, hf⟩
    · simp [hh]
    · simp [State.portOpen, hb, hf]
  rw [step_cons h rfl, hport]
  rfl

/-! ### A halted block -/

/-- `t` is `s` but for the schedule and the port. -/
def SameBlock (s t : State) : Prop := ∃ l h, t = { s with inputs := l, held := h }

namespace SameBlock

variable {s t : State}

theorem refl (s : State) : SameBlock s s := ⟨s.inputs, s.held, rfl⟩

theorem inputs (h : SameBlock s t) (l : List Input) : SameBlock s { t with inputs := l } := by
  obtain ⟨_, cs, rfl⟩ := h
  exact ⟨l, cs, rfl⟩

theorem held (h : SameBlock s t) (cs : List Cmd) : SameBlock s { t with held := cs } := by
  obtain ⟨l, _, rfl⟩ := h
  exact ⟨l, cs, rfl⟩

theorem faulted (h : SameBlock s t) : t.faulted = s.faulted := by
  obtain ⟨_, _, rfl⟩ := h
  rfl

end SameBlock

section
variable {s : State} (hf : s.faulted = true)
include hf

/-- A command on the port of a halted block is ignored (R149). -/
theorem sameBlock_hostCommand (c : Cmd) {t : State} (h : SameBlock s t) : Yields (hostCommand c t) (SameBlock s) := by
  rw [hostCommand_of_not_ready c (by simp [h.faulted, hf])]
  exact (yields_next _ _).2 h

theorem sameBlock_takeHeld {t : State} (h : SameBlock s t) : Yields (takeHeld t) (SameBlock s) := by
  unfold takeHeld
  split
  · exact (yields_next _ _).2 h
  · exact sameBlock_hostCommand hf _ (h.held _)

/-- The sequencer has no step in a halted block (R109). -/
theorem sameBlock_seqStep {t : State} (h : SameBlock s t) : Yields (seqStep t) (SameBlock s) := by
  rw [seqStep_stopped (.inr (h.faulted.trans hf))]
  exact (yields_next _ _).2 h

/-- A TICK after a fault does nothing (R129). -/
theorem sameBlock_tick {t : State} (h : SameBlock s t) : SameBlock s t.tick := by
  rwa [tick_ignored (.inl (h.faulted.trans hf))]

theorem sameBlock_runCycle (tick : Bool) (cmd : Option Cmd) {t : State} (h : SameBlock s t) :
    Yields (runCycle tick cmd t) (SameBlock s) := by
  refine Yields.andThen (P := SameBlock s) ?port fun u hu => sameBlock_seqStep hf ?sample
  case port =>
    split
    · exact sameBlock_takeHeld hf (h.held _)
    · exact (yields_next _ _).2 (h.held _)
  case sample =>
    unfold sampleTick
    split
    · exact sameBlock_tick hf hu
    · exact hu

/-- No event but PWR_RESET, at either level, changes a halted block (R129, R149, R177). -/
theorem sameBlock_eventStep {e : Input} (rest : List Input) (hreset : e ≠ .pwrReset)
    (hcycle : ∀ tick cmd, e ≠ .cycle true tick cmd) {t : State} (h : SameBlock s t) :
    Yields (eventStep e rest t) (SameBlock s) := by
  have hrest := h.inputs rest
  cases e with
  | pwrReset => exact absurd rfl hreset
  | tick => exact (yields_next _ _).2 (sameBlock_tick hf hrest)
  | command c =>
    simp only [eventStep, presentCommand]
    split
    · exact sameBlock_hostCommand hf c hrest
    · exact (yields_next _ _).2 (hrest.held _)
  | seqStep => exact sameBlock_seqStep hf hrest
  | run => exact sameBlock_seqStep hf h
  | cycle pwr tick cmd =>
    cases pwr with
    | true => exact absurd rfl (hcycle tick cmd)
    | false => exact sameBlock_runCycle hf tick cmd hrest

end

/-- In a halted block every RUN at the front of the schedule is over (R88). -/
theorem skipRun_faulted {s : State} (hf : s.faulted = true) :
    s.skipRun = { s with inputs := s.inputs.dropWhile Input.isRun } := by
  simp [State.skipRun, hf]

end Sys2Proof.Machine
end

section
/-! PROOFS. A sequence of R78 slot by slot: runs of the sequencer as iterates of `afterSlot`, and what the tick sequence
leaves, put together from its prologue, the five bytes it sends and its epilogue (R110, R136, R162). -/

namespace Sys2Proof.Machine

/-! ### Runs of the sequencer -/

/-- The next step is the sequencer's: it runs R78, and the schedule is over or has RUN at the front (R88, R109). -/
def State.sequencing (s : State) : Prop :=
  s.mp = microProgram ∧ s.running ∧ (s.inputs = [] ∨ ∃ rest, s.inputs = .run :: rest)

@[simp] theorem retired_inputs (s u : State) (last : Bool) : (retired s u last).inputs = u.inputs := by cases last <;> rfl

@[simp] theorem afterSlot_inputs (s : State) : (afterSlot s).inputs = s.inputs := by simp [afterSlot]

/-- A step of the sequencer runs the slot at SEQ_PC. -/
theorem step_sequencing {s : State} (h : s.sequencing) (hp : s.seqPc.toNat ≤ 29) : step s = .next (afterSlot s) := by
  obtain ⟨hm, ⟨hb, hf⟩, hi⟩ := h
  have hs : step s = seqStep s := by
    rcases hi with hi | ⟨rest, hi⟩
    · rw [step_nil hi]
      simp [State.portOpen, hb, hf]
    · exact step_run hi hb hf
  rw [hs, seqStep_program hm hb hf hp, exec_microOp_retired (slotInstr_endBit _ hp)]
  rfl

/-- A slot without END leaves the next step to the sequencer. -/
theorem sequencing_afterSlot {s : State} (h : s.sequencing) (he : endsAt s.seqPc.toNat = false) :
    (afterSlot s).sequencing := by
  obtain ⟨hm, ⟨hb, hf⟩, hi⟩ := h
  exact ⟨by simp [hm], ⟨by simp [afterSlot_busy, hb, he], by simp [hf]⟩, by simpa using hi⟩

/-- `n` steps run the `n` slots from SEQ_PC on, when none but the last of them has END (R81). -/
theorem runSteps_sequencing {n : Nat} {s : State} (h : s.sequencing) (hn : s.seqPc.toNat + n ≤ 30)
    (hend : ∀ k, s.seqPc.toNat ≤ k → k + 1 < s.seqPc.toNat + n → endsAt k = false) :
    runSteps n s = .next (afterSlot^[n] s) := by
  induction n generalizing s with
  | zero => simp
  | succ n ih =>
    rw [runSteps_succ, step_sequencing h (by omega), andThen_next, Function.iterate_succ_apply]
    rcases Nat.eq_zero_or_pos n with rfl | hpos
    · simp
    · have he := hend s.seqPc.toNat le_rfl (by omega)
      have hpc : (afterSlot s).seqPc.toNat = s.seqPc.toNat + 1 := by
        rw [afterSlot_seqPc (by omega), nextSlot, if_neg (by simp [he])]
      exact ih (sequencing_afterSlot h he) (by omega) fun k hk hlt => hend k (by omega) (by omega)

/-- A slot without END leaves its effect and the next SEQ_PC (R109). -/
theorem afterSlot_inner {s : State} (h : endsAt s.seqPc.toNat = false) :
    afterSlot s = { microOpEffect (slotInstr s.seqPc.toNat) s with seqPc := s.seqPc + 1 } := by
  simp [afterSlot, retired, h]

/-! ### The bytes of a tick -/

/-- The four events of a byte, with the fields that OUT.LO and OUT.HI drive (R136). -/
theorem byteEvents_eq (b : Byte) :
    byteEvents b = [.line (.dataLo (lowSix b)), .line (.dataHi (highTwo b)), .line (.wClk true), .line (.wClk false)] := by
  have hlo : lowSix b = BitVec.ofNat 6 b.toNat := BitVec.eq_of_toNat_eq (by simp [lowSix])
  have hhi : highTwo b = BitVec.ofNat 2 (b.toNat / 64) :=
    BitVec.eq_of_toNat_eq (by simp [highTwo, Nat.shiftRight_eq_div_pow])
  rw [hlo, hhi]
  rfl

/-- The operands that a tick sends, in order: CTRL, then WORD from its most significant byte on (R162). -/
def tickSources : List Source := [.ctrl, .byte 0, .byte 1, .byte 2, .byte 3]

theorem chipBytes_eq (w : Word) : chipBytes w = tickSources.map (Source.value w) := by
  have hbyte (j : BitVec 2) : byteOf w j = BitVec.ofNat 8 (w.toNat / 2 ^ (8 * (3 - j.toNat))) :=
    BitVec.eq_of_toNat_eq (by simp [toNat_byteOf])
  simp [chipBytes, tickSources, Source.value, controlByte, hbyte]

/-- The two fields of the last byte sent, as R136 lists them. -/
theorem lastByte_fields (w : Word) :
    lowSix (byteOf w 3) = BitVec.ofNat 6 w.toNat ∧ highTwo (byteOf w 3) = BitVec.ofNat 2 (w.toNat / 64) := by
  rw [lowSix_byteOf, highTwo_byteOf]
  refine ⟨by simp, BitVec.eq_of_toNat_eq ?_⟩
  simp
  omega

/-! ### The parts of a tick sequence -/

/-- Slots 0 to 3: TRIG rises, FQ_UD pulses, and WORD takes the entry at CURSOR (R136). -/
theorem afterSlot_prologue {s : State} {w : Word} (hpc : s.seqPc = 0) (hfq : s.fqUd = false)
    (hw : s.rom.read s.cursor.toNat = some w) :
    afterSlot^[4] s = { s with
      trig := true, word := some w, seqPc := 4
      trace := s.trace ++ [.line (.trig true), .line (.fqUd true), .line (.fqUd false)] } := by
  simp [afterSlot_inner, endsAt, microOpEffect, State.drive_eq, State.setLine, State.loadWord_eq, State.romAtCursor, hpc,
    hfq, hw]

/-- `s` four slots later, with the byte `b` sent: both buses written and one W_CLK pulse (R136). -/
def State.byteSent (s : State) (b : Byte) : State :=
  { s with dataLo := lowSix b, dataHi := highTwo b, seqPc := s.seqPc + 4, trace := s.trace ++ byteEvents b }

/-- The four slots from 4 * p + 4 on send byte `p`. -/
theorem afterSlot_byte {s : State} {w : Word} {p : Nat} (hp : p < (chipBytes w).length)
    (hpc : s.seqPc = BitVec.ofNat 5 (4 * p + 4)) (hw : s.word = some w) (hclk : s.wClk = false) :
    afterSlot^[4] s = s.byteSent (chipBytes w)[p] := by
  have hlt : p < 5 := hp
  interval_cases p <;>
    simp [chipBytes_eq, afterSlot_inner, endsAt, microOpEffect, State.outLow, State.outHigh, State.wordValue,
      State.countDraw_eq, State.drive_eq, State.setLine, State.byteSent, byteEvents_eq, tickSources, hpc, hw, hclk]

/-- From the slot of byte `p` on, the bytes that are left are sent in order (R162). -/
theorem afterSlot_bytes {n p : Nat} {s : State} {w : Word} (hp : p + n = 5) (hpc : s.seqPc = BitVec.ofNat 5 (4 * p + 4))
    (hw : s.word = some w) (hclk : s.wClk = false) :
    afterSlot^[4 * n] s = ((chipBytes w).drop p).foldl State.byteSent s := by
  have hlen : (chipBytes w).length = 5 := rfl
  induction n generalizing p s with
  | zero => simp [List.drop_of_length_le (show (chipBytes w).length ≤ p by omega)]
  | succ n ih =>
    have hlt : p < (chipBytes w).length := by omega
    have hnext : (s.byteSent (chipBytes w)[p]).seqPc = BitVec.ofNat 5 (4 * (p + 1) + 4) := by
      have hadd : BitVec.ofNat 5 (4 * p + 4 + 4) = BitVec.ofNat 5 (4 * p + 4) + 4 := BitVec.ofNat_add ..
      rw [Nat.mul_succ, hadd, ← hpc]
      rfl
    rw [List.drop_eq_getElem_cons hlt, List.foldl_cons, Nat.mul_succ, Function.iterate_add_apply,
      afterSlot_byte hlt hpc hw hclk]
    exact ih (by omega) hnext hw hclk

/-- All five bytes sent: the buses hold the last of them (R136). -/
theorem foldl_byteSent_chipBytes (s : State) (w : Word) :
    (chipBytes w).foldl State.byteSent s = { s with
      dataLo := BitVec.ofNat 6 w.toNat, dataHi := BitVec.ofNat 2 (w.toNat / 64)
      seqPc := s.seqPc + 20, trace := s.trace ++ (chipBytes w).flatMap byteEvents } := by
  obtain ⟨hlo, hhi⟩ := lastByte_fields w
  have hpc : s.seqPc + 4 + 4 + 4 + 4 + 4 = s.seqPc + 20 := by simp only [BitVec.add_assoc]; rfl
  rw [← hlo, ← hhi, ← hpc]
  simp [chipBytes_eq, tickSources, Source.value, State.byteSent]

/-- Slots 24 and 25: CURSOR advances, TRIG falls, and END retires the tick (R121, R122). -/
theorem afterSlot_epilogue {s : State} (hpc : s.seqPc = 24) :
    afterSlot^[2] s = { s with
      cursor := s.cursor + 1, trig := false, seqPc := 0, serviced := s.serviced + 1
      busy := s.busy && s.pending, pending := false
      trace := s.trace ++ .line (.trig false) :: if s.pending then [.tickAccepted] else [] } := by
  simp [afterSlot, retired, endsAt, microOpEffect, State.advanceCursor, State.drive_eq, State.setLine, hpc]

/-! ### The whole tick sequence -/

/-- What the tick sequence that stages `w` leaves of `s`: the end state of R136, with a pending tick started (R122). -/
def State.tickServiced (s : State) (w : Word) : State :=
  { s with
    cursor := s.cursor + 1, word := some w, trig := false, seqPc := 0, serviced := s.serviced + 1
    dataLo := BitVec.ofNat 6 w.toNat, dataHi := BitVec.ofNat 2 (w.toNat / 64)
    busy := s.busy && s.pending, pending := false
    trace := s.trace ++ tickEvents w ++ if s.pending then [.tickAccepted] else [] }

/-- The 26 slots are the prologue, the five bytes and the epilogue. -/
theorem afterSlot_tick {s : State} {w : Word} (hpc : s.seqPc = 0) (hfq : s.fqUd = false) (hclk : s.wClk = false)
    (hw : s.rom.read s.cursor.toNat = some w) : afterSlot^[26] s = s.tickServiced w := by
  rw [show 26 = 2 + (4 * 5 + 4) from rfl, Function.iterate_add_apply, Function.iterate_add_apply,
    afterSlot_prologue hpc hfq hw, afterSlot_bytes (w := w) (p := 0) rfl rfl rfl, List.drop_zero,
    foldl_byteSent_chipBytes, afterSlot_epilogue rfl]
  · simp [State.tickServiced, tickEvents]
  · exact hclk

/-- From slot 0 on, 26 steps of the sequencer service one tick. -/
theorem runSteps_tick {s : State} {w : Word} (h : s.sequencing) (hpc : s.seqPc = 0) (hfq : s.fqUd = false)
    (hclk : s.wClk = false) (hw : s.rom.read s.cursor.toNat = some w) : runSteps 26 s = .next (s.tickServiced w) := by
  have hend : ∀ k < 25, endsAt k = false := by decide
  have hnat : s.seqPc.toNat = 0 := by simp [hpc]
  rw [runSteps_sequencing h (by omega) fun k _ hk => hend k (by omega), afterSlot_tick hpc hfq hclk hw]

end Sys2Proof.Machine
end

section
/-! PROOFS. The statements of spec/42_tick_sequence.md on the TICK and its sequence, and R129 with R149 on a halted block. -/

namespace Sys2Proof.Machine

/-- Settles O32: each event but PWR_RESET leaves a halted block as it is, and the step takes one event. -/
theorem faultedBlockHalts : Obligations.FaultedBlockHalts := by
  intro s hf hreset hcycle
  suffices h : Yields (step s) (SameBlock s) by
    obtain ⟨t, e, l, cs, rfl⟩ := h
    exact ⟨l, cs, e⟩
  have hsame : SameBlock s s.skipRun := by
    rw [skipRun_faulted hf]
    exact (SameBlock.refl s).inputs _
  have hfront : s.skipRun.inputs = s.inputs.dropWhile Input.isRun := by rw [skipRun_faulted hf]
  unfold step machineStep frontStep
  split
  · split
    · exact sameBlock_takeHeld hf hsame
    · exact sameBlock_seqStep hf hsame
  · next e rest he =>
    rw [hfront] at he
    split
    · exact sameBlock_takeHeld hf hsame
    · refine sameBlock_eventStep hf rest ?_ ?_ hsame
      · rintro rfl
        exact hreset rest he
      · rintro tick cmd rfl
        exact hcycle tick cmd rest he

/-- Settles O34: the TICK arrives in this step, and it is ignored (R128, R129). -/
theorem tickIgnoredBeforeArmOrAfterFault : Obligations.TickIgnoredBeforeArmOrAfterFault := by
  intro s rest hoff hp h
  rw [step_tick h hp, tick_ignored (s := { s with inputs := rest }) hoff.symm]

/-- Settles O35: the TICK arrives as an overrun in this step, and the policy decides (R131, R132). -/
theorem overrunFollowsPolicy : Obligations.OverrunFollowsPolicy := by
  intro s rest hr ha h
  have hstep : step s = .next { s with inputs := rest }.overrunTick := by
    rw [step_tick h (.inr hr), tick_overrun (s := { s with inputs := rest }) hr ha]
  rw [hstep]
  refine ⟨fun ho hp => ?_, fun ho hp => ?_, fun ho => ?_⟩
  · rw [overrunTick_delay_free (s := { s with inputs := rest }) ho hp]
  · rw [overrunTick_delay_full (s := { s with inputs := rest }) ho hp]
  · rw [overrunTick_drop (s := { s with inputs := rest }) ho]

/-- Settles O46: an accepted TICK puts the sequencer at slot 0, where a pending one left it, and from there the 26 slots
leave what R136 lists. -/
theorem tickSequenceWritesExactTrace : Obligations.TickSequenceWritesExactTrace := by
  intro s w hm hw hf hfq hclk
  refine ⟨fun hb ha hp hh hi => ?idle, fun hb hpc hp hi => ?pending⟩
  case idle =>
    have htick : step s = .next { s with inputs := [] }.tickTaken := by
      rw [step_tick hi (.inl hh), tick_accepted (s := { s with inputs := [] }) ⟨hb, hf⟩ ha]
    have hseq : ({ s with inputs := [] } : State).tickTaken.sequencing := ⟨hm, ⟨rfl, hf⟩, .inl rfl⟩
    rw [runSteps_succ, htick, andThen_next, runSteps_tick hseq rfl hfq hclk hw]
    simp [State.tickServiced, State.tickTaken, hb, hp]
  case pending =>
    have hseq : s.sequencing := ⟨hm, ⟨hb, hf⟩, .inl hi⟩
    rw [runSteps_tick hseq hpc hfq hclk hw]
    simp [State.tickServiced, hp, hb, hpc]

end Sys2Proof.Machine
end

section
/-! PROOFS. What a command does on an idle block and in the step that presents it, and the DDS reset sequence slot by slot
(spec/43_init_and_arm.md R148 to R158). -/

namespace Sys2Proof.Machine

/-! ### Commands on an idle block -/

/-- An idle block acts on a command at once (R148). -/
theorem State.accept_ready {s : State} (h : s.ready) (act : State → State) : s.accept act = act s := by
  rw [State.accept_eq, if_pos h]

/-- After ARM the commands that prepare the block fault, each by its own test of ARMED (R156). -/
theorem exec_armed_faults {s : State} (hr : s.ready) (ha : s.armed = true) {i : Instr}
    (hi : i = .build ∨ i = .ddsInit ∨ i = .arm) : exec i s = .next (s.faultRecorded 7 .cmdAfterArm 0) := by
  suffices h : exec i s = .next (s.raise .cmdAfterArm 0) by rw [h, raise_eq_faultRecorded hr.2]; rfl
  rcases hi with rfl | rfl | rfl
  · simp only [exec, execBuild, State.accept_ready hr, ha, if_true]
  · simp only [exec, execDdsInit, State.accept_ready hr, ha, if_true]
  · simp only [exec, execArm, State.accept_ready hr, ha, if_true]

/-- Before ARM an idle block starts the DDS reset sequence at a DDS_INIT (R151). -/
theorem exec_ddsInit_starts {s : State} (hr : s.ready) (ha : s.armed = false) :
    exec .ddsInit s = .next (s.startSequence initEntry) := by
  simp [exec, execDdsInit, State.accept_ready hr, ha]

/-- The codes from 4 on are the reserved ones (R84). -/
theorem decodeCommand_reserved {c : Cmd} (hc : 4 ≤ c.toNat) : decodeCommand c = .error (.reservedCommand c) := by
  revert c
  decide

/-- A reserved code faults on an idle block, whether it is armed or not (R157). -/
theorem hostCommand_reserved {s : State} (hr : s.ready) {c : Cmd} (hc : 4 ≤ c.toNat) :
    hostCommand c s = .next (s.faultRecorded 8 .illegalCommand (BitVec.ofNat 6 c.toNat)) := by
  have hinfo : c.setWidth 6 = BitVec.ofNat 6 c.toNat := BitVec.eq_of_toNat_eq (by simp)
  rw [hostCommand, decodeCommand_reserved hc, State.reservedCommand, State.accept_ready hr,
    raise_eq_faultRecorded hr.2, hinfo]
  rfl

/-! ### The step that presents a command -/

/-- An idle block acts on a command in the step that presents it, when no older one is held (R148). -/
theorem step_command_ready {s : State} (hr : s.ready) (hh : s.held = []) (c : Cmd) (rest : List Input) :
    step { s with inputs := .command c :: rest } = hostCommand c { s with inputs := rest } := by
  rw [step_cons rfl rfl]
  simp [hh, eventStep, presentCommand, State.portOpen, hr.1]

/-- While the sequencer runs, a presented command stays on the port (R148). -/
theorem step_command_running {s : State} (hr : s.running) (c : Cmd) (rest : List Input) :
    step { s with inputs := .command c :: rest } = .next { s with inputs := rest, held := s.held ++ [c] } := by
  rw [step_cons rfl rfl]
  simp [eventStep, presentCommand, State.portOpen, hr.1, hr.2]

/-- With an empty schedule an idle block acts on the oldest held command (R148). -/
theorem step_held_ready {s : State} (hr : s.ready) (c : Cmd) (cs : List Cmd) :
    step { s with inputs := [], held := c :: cs } = hostCommand c { s with inputs := [], held := cs } := by
  rw [step_nil rfl]
  simp [takeHeld, State.portOpen, hr.1]

/-- With an empty schedule and an empty port an idle block stays as it is (R109). -/
theorem step_idle {s : State} (hr : s.ready) (hh : s.held = []) :
    step { s with inputs := [] } = .next { s with inputs := [] } := by
  rw [step_nil rfl]
  simp [hh, seqStep_stopped, hr.1]

/-- A RUN that is over takes no step of its own (R88). -/
theorem step_run_over {s : State} (hr : s.ready) (rest : List Input) :
    step { s with inputs := .run :: rest } = step { s with inputs := rest } := by
  have hskip : ({ s with inputs := .run :: rest } : State).skipRun = ({ s with inputs := rest } : State).skipRun := by
    simp only [State.skipRun, hr.1]
    rfl
  rw [step, step, machineStep, machineStep, hskip]

/-- A first step that leads to `t`, then the rest from `t`. -/
theorem runSteps_step {s t : State} (h : step s = .next t) (n : Nat) : runSteps (n + 1) s = runSteps n t := by
  rw [runSteps_succ, h, andThen_next]

/-- A first BUILD commits in the step that presents it, when the configuration passes every check (R101). -/
theorem step_build {s : State} (hs : s.awaitsBuild) (hc : s.cfg.buildable) (hh : s.held = []) (rest : List Input) :
    step { s with inputs := .command 0b001 :: rest } = .next { s.commitTable with inputs := rest } :=
  (step_command_ready hs.1 hh 0b001 rest).trans
    (exec_build_commits (s := { s with inputs := rest }) hs (buildFault_buildable hc))

/-- A held first BUILD commits in the first idle step (R101, R148). -/
theorem step_build_held {s : State} (hs : s.awaitsBuild) (hc : s.cfg.buildable) (cs : List Cmd) :
    step { s with inputs := [], held := 0b001 :: cs } = .next { s.commitTable with inputs := [], held := cs } :=
  (step_held_ready hs.1 0b001 cs).trans
    (exec_build_commits (s := { s with inputs := [], held := cs }) hs (buildFault_buildable hc))

/-! ### The DDS reset sequence -/

/-- What the DDS reset sequence leaves of `s`: the four line writes, INITD, and an idle sequencer (R152, R153). -/
def State.initDone (s : State) : State :=
  { s with trace := s.trace ++ initEvents, fqUd := false, resetLine := false, initd := true, seqPc := 0, busy := false }

/-- Slots 26 to 29 drive FQ_UD low, pulse RESET from low, and END sets INITD (R110, R152). -/
theorem afterSlot_init {s : State} (hpc : s.seqPc = initEntry) (hp : s.pending = false) :
    afterSlot^[4] s = s.initDone := by
  simp [afterSlot, retired, endsAt, microOpEffect, State.drive_eq, State.setLine, State.initDone, initEvents,
    initEntry, hpc, hp]

/-- From slot 26 on, four steps of the sequencer are the DDS reset sequence. -/
theorem runSteps_init {s : State} (h : s.sequencing) (hpc : s.seqPc = initEntry) (hp : s.pending = false) :
    runSteps 4 s = .next s.initDone := by
  have hend : ∀ k < 29, 26 ≤ k → endsAt k = false := by decide
  have hnat : s.seqPc.toNat = 26 := by rw [hpc]; rfl
  rw [runSteps_sequencing h (by omega) fun k _ hk => hend k (by omega) (by omega), afterSlot_init hpc hp]

/-- DDS_INIT on an idle block before ARM is accepted in the step that presents it (R151). -/
theorem step_ddsInit {s : State} (hr : s.ready) (ha : s.armed = false) (hh : s.held = []) (rest : List Input) :
    step { s with inputs := .command 0b010 :: rest } = .next { s.startSequence initEntry with inputs := rest } :=
  (step_command_ready hr hh 0b010 rest).trans
    (exec_ddsInit_starts (s := { s with inputs := rest }) hr ha)

/-- An accepted DDS_INIT and its sequence, when nothing comes from outside until BUSY = 0 (R152). -/
theorem runSteps_ddsInit {s : State} (hm : s.mp = microProgram) (hr : s.ready) (ha : s.armed = false)
    (hp : s.pending = false) (hh : s.held = []) {rest : List Input} (hrest : rest = [] ∨ ∃ l, rest = .run :: l) :
    runSteps 5 { s with inputs := .command 0b010 :: rest } = .next { s.initDone with inputs := rest } := by
  have hseq : ({ s.startSequence initEntry with inputs := rest } : State).sequencing := ⟨hm, ⟨rfl, hr.2⟩, hrest⟩
  rw [runSteps_step (step_ddsInit hr ha hh rest), runSteps_init hseq rfl hp]
  rfl

/-! ### BUILD beside the DDS reset sequence -/

/-- BUILD's commit and the DDS reset sequence write different parts of the state (R158). -/
theorem commitTable_initDone (s : State) : s.commitTable.initDone = s.initDone.commitTable := rfl

/-- The DDS reset sequence leaves a first BUILD to come (R93). -/
theorem awaitsBuild_initDone {s : State} (h : s.awaitsBuild) : s.initDone.awaitsBuild :=
  ⟨⟨rfl, h.1.2⟩, h.2⟩

section
variable {s : State} (hm : s.mp = microProgram) (hs : s.awaitsBuild) (hc : s.cfg.buildable) (hp : s.pending = false)
  (hh : s.held = [])
include hm hs hc hp hh

/-- BUILD, then DDS_INIT and its sequence (R158). -/
theorem runSteps_build_ddsInit :
    runSteps 7 { s with inputs := [.command 0b001, .command 0b010, .run] }
      = .next { s.initDone.commitTable with inputs := [] } :=
  have ⟨hr, ha, _⟩ := hs
  have hdone : s.initDone.commitTable.ready := (awaitsBuild_initDone hs).1
  calc runSteps 7 { s with inputs := [.command 0b001, .command 0b010, .run] }
    _ = runSteps 6 { s.commitTable with inputs := [.command 0b010, .run] } := runSteps_step (step_build hs hc hh _) 6
    _ = runSteps 1 { s.commitTable.initDone with inputs := [.run] } :=
      runSteps_add 1 (runSteps_ddsInit (s := s.commitTable) hm hr ha hp hh (.inr ⟨[], rfl⟩))
    _ = runSteps 1 { s.initDone.commitTable with inputs := [.run] } := by rw [commitTable_initDone]
    _ = .next { s.initDone.commitTable with inputs := [] } :=
      runSteps_step ((step_run_over hdone []).trans (step_idle hdone hh)) 0

/-- DDS_INIT and its sequence, then BUILD (R158). -/
theorem runSteps_ddsInit_build :
    runSteps 7 { s with inputs := [.command 0b010, .run, .command 0b001] }
      = .next { s.initDone.commitTable with inputs := [] } :=
  have ⟨hr, ha, _⟩ := hs
  have hs' := awaitsBuild_initDone hs
  calc runSteps 7 { s with inputs := [.command 0b010, .run, .command 0b001] }
    _ = runSteps 2 { s.initDone with inputs := [.run, .command 0b001] } :=
      runSteps_add 2 (runSteps_ddsInit hm hr ha hp hh (.inr ⟨_, rfl⟩))
    _ = runSteps 1 { s.initDone.commitTable with inputs := [] } :=
      runSteps_step ((step_run_over hs'.1 _).trans (step_build hs' hc hh [])) 1
    _ = .next { s.initDone.commitTable with inputs := [] } :=
      runSteps_step (step_idle (s := s.initDone.commitTable) hs'.1 hh) 0

/-- BUILD presented while the DDS reset sequence runs: held to its END, then acted on (R148, R158). -/
theorem runSteps_ddsInit_heldBuild :
    runSteps 7 { s with inputs := [.command 0b010, .command 0b001] }
      = .next { s.initDone.commitTable with inputs := [] } :=
  have ⟨hr, ha, _⟩ := hs
  have hseq : ({ s.startSequence initEntry with inputs := [], held := s.held ++ [0b001] } : State).sequencing :=
    ⟨hm, ⟨rfl, hr.2⟩, .inl rfl⟩
  calc runSteps 7 { s with inputs := [.command 0b010, .command 0b001] }
    _ = runSteps 6 { s.startSequence initEntry with inputs := [.command 0b001] } :=
      runSteps_step (step_ddsInit hr ha hh _) 6
    _ = runSteps 5 { s.startSequence initEntry with inputs := [], held := s.held ++ [0b001] } :=
      runSteps_step (step_command_running (s := s.startSequence initEntry) ⟨rfl, hr.2⟩ 0b001 []) 5
    _ = runSteps 1 { s.initDone with inputs := [], held := s.held ++ [0b001] } :=
      runSteps_add 1 (runSteps_init hseq rfl hp)
    _ = runSteps 1 { s.initDone with inputs := [], held := 0b001 :: s.held } := by simp [hh]
    _ = .next { s.initDone.commitTable with inputs := [] } :=
      runSteps_step (step_build_held (awaitsBuild_initDone hs) hc s.held) 0

end

end Sys2Proof.Machine
end

section
/-! PROOFS. The statements of spec/43_init_and_arm.md on DDS_INIT, its order with BUILD, and the commands that fault. -/

namespace Sys2Proof.Machine

/-- Settles O29: on an idle block each of the three commands tests ARMED first (R156). -/
theorem commandsAfterArmFault : Obligations.CommandsAfterArmFault :=
  fun _ _ hr ha hi => exec_armed_faults hr ha hi

/-- Settles O30: the step presents the code to an idle block, and no reserved code decodes (R157). -/
theorem reservedCommandFaults : Obligations.ReservedCommandFaults := by
  intro s c rest hr hh h hc
  have hstep := step_command_ready hr hh c rest
  rw [hostCommand_reserved (s := { s with inputs := rest }) hr hc, ← h] at hstep
  exact hstep

/-- Settles O47: the DDS_INIT is accepted in one step, and slots 26 to 29 take four (R152). -/
theorem ddsInitWritesExactTrace : Obligations.DdsInitWritesExactTrace := by
  intro s hm hr ha hp hh h
  have hrun := runSteps_ddsInit hm hr ha hp hh (.inl rfl)
  rw [← h] at hrun
  exact hrun.trans (by simp [State.initDone, hr.1])

/-- Settles O49: each order leads to the state of the DDS reset sequence with the table committed (R158). -/
theorem buildAndDdsInitCommute : Obligations.BuildAndDdsInitCommute :=
  fun s hm hs hc hp hh => ⟨{ s.initDone.commitTable with inputs := [] }, rfl, rfl,
    runSteps_build_ddsInit hm hs hc hp hh, runSteps_ddsInit_build hm hs hc hp hh,
    runSteps_ddsInit_heldBuild hm hs hc hp hh⟩

end Sys2Proof.Machine
end

section
/-! PROOFS. The reference observer: what one event of the trace does to it (spec/44_dds_interface.md R168 to R170). -/

namespace Sys2Proof.Machine

/-- The observer sees a trace event by event (R168). -/
theorem observe_concat (tr : List Event) (e : Event) : observe (tr ++ [e]) = (observe tr).see e := by
  simp [observe]

/-- Ticks and faults are no line writes, so the observer does not see them (R168). -/
@[simp] theorem Observer.see_not_line (o : Observer) :
    o.see .tickAccepted = o ∧ o.see .tickDelayed = o ∧ o.see .tickDropped = o
      ∧ ∀ code info, o.see (.fault code info) = o :=
  ⟨rfl, rfl, rfl, fun _ _ => rfl⟩

/-- Five captured bytes are the control byte and the word (R170). -/
theorem Observer.commit_five {o : Observer} {c b0 b1 b2 b3 : Byte} (h : o.caps = [c, b0, b1, b2, b3]) :
    o.commit = { o with caps := [], active := some (wordOfBytes b0 b1 b2 b3), activeCtrl := some c } := by
  simp only [Observer.commit, h]

/-- Any other count leaves ACTIVE and ACTIVE_CTRL Unknown (R170). -/
theorem Observer.commit_not_five {o : Observer} (h : o.caps.length ≠ 5) :
    o.commit = { o with caps := [], active := none, activeCtrl := none } := by
  unfold Observer.commit
  split
  · next hc => simp [hc] at h
  · rfl

end Sys2Proof.Machine
end

section
/-! PROOFS. The chip observer beside the sequencer: what each slot of R78 does to the buses, to CAPS and to ACTIVE, and the
stream invariant (`BusInv`, `ObserverInv`), kept by every event together with `BlockInv` (R161, R162, R169 to R172). -/

namespace Sys2Proof.Machine

/-! ### Line writes and the observer -/

/-- The line write of a micro-op, if it has one (R111 to R120). `microOpEffect_trace` ties it to the effect. -/
def lineWriteOf (i : Instr) (s : State) : Option LineWrite :=
  match i with
  | .trigSet _ => some (.trig true)
  | .trigClr _ => some (.trig false)
  | .fqudTgl _ => some (.fqUd (!s.fqUd))
  | .fqudClr _ => some (.fqUd false)
  | .wclkTgl _ => some (.wClk (!s.wClk))
  | .rstSet _ => some (.reset true)
  | .rstClr _ => some (.reset false)
  | .outLoByte j _ => some (.dataLo (lowSix (byteOf s.wordValue j)))
  | .outLoCtrl _ => some (.dataLo (lowSix controlByte))
  | .outHiByte j _ => some (.dataHi (highTwo (byteOf s.wordValue j)))
  | .outHiCtrl _ => some (.dataHi (highTwo controlByte))
  | .loadW _ | .curInc _ | .nop | .build | .ddsInit | .arm => none

/-- A micro-op appends its line write to the trace and nothing else (R35). -/
theorem microOpEffect_trace (i : Instr) (s : State) :
    (microOpEffect i s).trace = s.trace ++ ((lineWriteOf i s).map Event.line).toList := by
  cases i <;>
    simp [microOpEffect, lineWriteOf, State.outLow, State.outHigh, State.countDraw_eq, State.loadWord_eq,
      State.advanceCursor, Source.value]

/-- Which micro-ops write each bus, and what they write (R119, R120). -/
@[simp] theorem microOpEffect_buses (i : Instr) (s : State) :
    (microOpEffect i s).dataLo = (match i with
        | .outLoByte j _ => lowSix (byteOf s.wordValue j) | .outLoCtrl _ => lowSix controlByte | _ => s.dataLo)
      ∧ (microOpEffect i s).dataHi = (match i with
        | .outHiByte j _ => highTwo (byteOf s.wordValue j) | .outHiCtrl _ => highTwo controlByte | _ => s.dataHi) := by
  cases i <;>
    simp [microOpEffect, State.outLow, State.outHigh, State.countDraw_eq, State.loadWord_eq, State.advanceCursor,
      Source.value]

/-- The observer sees the line write of a micro-op (R168). -/
theorem observer_microOpEffect (i : Instr) (s : State) :
    (microOpEffect i s).observer = (lineWriteOf i s).elim s.observer fun w => s.observer.see (.line w) := by
  unfold State.observer
  rw [microOpEffect_trace]
  cases lineWriteOf i s with
  | none => simp
  | some w => exact observe_concat _ _

/-- What ends a micro-op is no line write, so the observer does not see it (R168). -/
theorem observer_retired (s u : State) (last : Bool) : (retired s u last).observer = u.observer := by
  cases last <;> cases hp : s.pending <;> simp [retired, State.observer, observe_concat, hp]

/-- What ends a micro-op leaves the buses (R109, R122). -/
theorem retired_buses (s u : State) (last : Bool) :
    (retired s u last).dataLo = u.dataLo ∧ (retired s u last).dataHi = u.dataHi := by
  cases last <;> exact ⟨rfl, rfl⟩

/-! ### Bytes of the word and of BUS -/

/-- The low six bits of a byte, as `BusInv` has them (R70). -/
theorem lowSix_eq_ofNat (b : Byte) : lowSix b = BitVec.ofNat 6 b.toNat := BitVec.eq_of_toNat_eq (by simp [lowSix])

/-- The high two bits of a byte, as `BusInv` has them (R70). -/
theorem highTwo_eq_ofNat (b : Byte) : highTwo b = BitVec.ofNat 2 (b.toNat / 64) :=
  BitVec.eq_of_toNat_eq (by simp [highTwo, Nat.shiftRight_eq_div_pow])

/-- The four bytes of a word, the most significant first, are the word (R68, R170). -/
theorem wordOfBytes_byteOf (w : Word) : wordOfBytes (byteOf w 0) (byteOf w 1) (byteOf w 2) (byteOf w 3) = w := by
  have hjoin {start len start' : Nat} (h : start' = start + 8) :
      w.extractLsb' start' len ++ w.extractLsb' start 8 = w.extractLsb' start (len + 8) :=
    BitVec.extractLsb'_append_extractLsb'_eq_extractLsb' h
  simp only [byteOf_eq_laneOf]
  calc wordOfBytes (laneOf w 3) (laneOf w 2) (laneOf w 1) (laneOf w 0)
    _ = w.extractLsb' 24 8 ++ w.extractLsb' 16 8 ++ w.extractLsb' 8 8 ++ w.extractLsb' 0 8 := rfl
    _ = w.extractLsb' 0 (8 + 8 + 8 + 8) := by rw [hjoin rfl, hjoin rfl, hjoin rfl]
    _ = w := BitVec.extractLsb'_eq_self

/-- The bytes that a tick sends, committed, are the control byte 0 and the word (R170, R172). -/
theorem commit_chipBytes {o : Observer} {w : Word} (h : o.caps = chipBytes w) :
    o.commit = { o with caps := [], active := some w, activeCtrl := some 0 } := by
  have hbytes : chipBytes w = [0, byteOf w 0, byteOf w 1, byteOf w 2, byteOf w 3] := chipBytes_eq w
  rw [Observer.commit_five (h.trans hbytes), wordOfBytes_byteOf]

/-! ### What each slot does to the buses and to the observer -/

/-- DATA_LO is written in every fourth slot from 4 to 20, with the bytes of a tick in order (R162). -/
theorem dataLo_slot (s : State) {pc : Nat} (hp : pc ≤ 29) :
    (microOpEffect (slotInstr pc) s).dataLo =
      if pc % 4 = 0 ∧ 4 ≤ pc ∧ pc ≤ 20 then lowSix ((chipBytes s.wordValue).getD ((pc - 4) / 4) 0) else s.dataLo := by
  rw [chipBytes_eq]
  interval_cases pc <;> simp [tickSources, Source.value]

/-- DATA_HI is written in every fourth slot from 5 to 21, with the bytes of a tick in order (R162). -/
theorem dataHi_slot (s : State) {pc : Nat} (hp : pc ≤ 29) :
    (microOpEffect (slotInstr pc) s).dataHi =
      if pc % 4 = 1 ∧ 5 ≤ pc ∧ pc ≤ 21 then highTwo ((chipBytes s.wordValue).getD ((pc - 5) / 4) 0) else s.dataHi := by
  rw [chipBytes_eq]
  interval_cases pc <;> simp [tickSources, Source.value]

/-- Slot 1 commits, every fourth slot from 6 to 22 captures BUS, slot 28 forgets, and the others move BUS at most
(R162, R169, R170). -/
theorem observer_slot {s : State} {pc : Nat} (hp : pc ≤ 29) (h : LinesAt s pc) (hlo : s.observer.lo = s.dataLo)
    (hhi : s.observer.hi = s.dataHi) :
    (microOpEffect (slotInstr pc) s).observer =
      if pc = 1 then s.observer.commit
      else if pc % 4 = 2 ∧ 6 ≤ pc ∧ pc ≤ 22 then
        { s.observer with caps := s.observer.caps ++ [busOf s.observer.hi s.observer.lo] }
      else if pc = 28 then { s.observer with caps := [], active := none, activeCtrl := none }
      else { s.observer with
        lo := (microOpEffect (slotInstr pc) s).dataLo
        hi := (microOpEffect (slotInstr pc) s).dataHi } := by
  obtain ⟨-, hf, hw, -⟩ := h
  replace hlo := hlo.symm
  replace hhi := hhi.symm
  rw [observer_microOpEffect]
  interval_cases pc <;> simp_all [lineWriteOf, Observer.see]

/-! ### What a slot leaves -/

/-- A slot moves the buses as its micro-op does; what ends it does not (R109). -/
@[simp] theorem afterSlot_buses (s : State) :
    (afterSlot s).dataLo = (microOpEffect (slotInstr s.seqPc.toNat) s).dataLo
      ∧ (afterSlot s).dataHi = (microOpEffect (slotInstr s.seqPc.toNat) s).dataHi := retired_buses _ _ _

/-- The observer sees a slot as it sees its micro-op (R168). -/
theorem afterSlot_observer (s : State) :
    (afterSlot s).observer = (microOpEffect (slotInstr s.seqPc.toNat) s).observer := observer_retired _ _ _

/-- A slot other than 0 is reached from the slot before it, which has no END (R109). -/
theorem afterSlot_seqPc_pos {s : State} (hp : s.seqPc.toNat ≤ 29) (hpos : 0 < (afterSlot s).seqPc.toNat) :
    (afterSlot s).seqPc.toNat = s.seqPc.toNat + 1 := by
  rw [afterSlot_seqPc hp] at hpos ⊢
  by_cases he : s.seqPc.toNat = 25 ∨ s.seqPc.toNat = 29
  · rw [nextSlot_end he] at hpos
    omega
  · exact nextSlot_inner he

/-- A tick sequence past its rising FQ_UD: CAPS holds the bytes of this tick (R170). -/
abbrev State.staging (s : State) : Prop := s.inTick ∧ 2 ≤ s.seqPc.toNat

/-- The slots that lead to one past the rising FQ_UD are 1 to 24 (R78). -/
theorem staging_afterSlot {s : State} (hb : s.busy = true) (hp : s.seqPc.toNat ≤ 29) :
    (afterSlot s).staging ↔ 1 ≤ s.seqPc.toNat ∧ s.seqPc.toNat ≤ 24 := by
  simp only [State.staging, State.inTick, afterSlot_busy, afterSlot_seqPc hp, hb, Bool.true_and]
  by_cases he : s.seqPc.toNat = 25 ∨ s.seqPc.toNat = 29
  · rw [nextSlot_end he]
    omega
  · rw [nextSlot_inner he, Bool.eq_false_iff.2 (mt (endsAt_iff _).1 he)]
    simp only [Bool.not_false, Bool.true_or, true_and]
    omega

/-- The count of rising FQ_UD pulses grows in slot 1 alone (R113). -/
theorem updates_afterSlot {s : State} (hb : s.busy = true) (hp : s.seqPc.toNat ≤ 29) :
    (afterSlot s).updates = s.updates + if s.seqPc.toNat = 1 then 1 else 0 := by
  simp only [State.updates, staging_afterSlot hb hp, afterSlot_serviced, State.inTick, hb, true_and]
  split_ifs <;> omega

/-! ### WORD -/

/-- Once a word has been loaded the block is armed, so WORD holds a value (R44). -/
theorem word_isSome {s : State} (h : BlockInv s) (hpos : 0 < s.loads) : s.word.isSome = true := by
  have ⟨hc, _, _, hrun, hserv, _, hword⟩ := h
  have harmed : s.armed = true := by
    by_contra ha
    have h0 := hserv (by simpa using ha)
    simp only [State.loads, h0] at hpos
    split at hpos
    · next hin =>
      obtain ⟨⟨hb, hp⟩, -⟩ := hin
      obtain ⟨-, -, -, harm⟩ := hrun hb
      exact ha (harm.2 hp)
    · omega
  rw [hword hpos]
  exact armed_entry_isSome hc harmed (Nat.mod_lt _ (by omega))

/-- From slot 4 of a tick sequence on, OUT.LO and OUT.HI read the word that the tick loaded (R118, R119). -/
theorem wordValue_loaded {s : State} (h : BlockInv s) (hin : s.inTick) (hp : 4 ≤ s.seqPc.toNat) :
    s.wordValue = s.word.getD 0 := by
  obtain ⟨w, hw⟩ := Option.isSome_iff_exists.1 (word_isSome h (by rw [State.loads, if_pos ⟨hin, hp⟩]; omega))
  simp [State.wordValue, hw]

/-! ### The buses -/

/-- A slot of a tick sequence writes a bus with its next byte or leaves it (R161, R162). -/
theorem busInv_afterSlot {s : State} (h : BlockInv s) (hbus : BusInv s) (hb : s.busy = true) : BusInv (afterSlot s) := by
  have ⟨_, _, _, hrun, _⟩ := h
  obtain ⟨-, hp, -⟩ := hrun hb
  obtain ⟨hlo, hhi⟩ := hbus
  refine ⟨fun ⟨_, h25⟩ h5 => ?lo, fun ⟨_, h25⟩ h6 => ?hi⟩
  all_goals
    have hnext := afterSlot_seqPc_pos hp (by omega)
    have hin : s.inTick := ⟨hb, by omega⟩
    have hword : (afterSlot s).word = s.word := by rw [afterSlot_word hp, if_neg (by omega)]
    rw [hword, hnext]
  case lo =>
    rw [(afterSlot_buses s).1, dataLo_slot s hp]
    split
    · have hbyte : min ((s.seqPc.toNat + 1 - 5) / 4) 4 = (s.seqPc.toNat - 4) / 4 := by omega
      rw [lowSix_eq_ofNat, wordValue_loaded h hin (by omega), hbyte]
    · have hbyte : min ((s.seqPc.toNat + 1 - 5) / 4) 4 = min ((s.seqPc.toNat - 5) / 4) 4 := by omega
      rw [hlo hin (by omega), hbyte]
  case hi =>
    rw [(afterSlot_buses s).2, dataHi_slot s hp]
    split
    · have hbyte : (s.seqPc.toNat + 1 - 6) / 4 = (s.seqPc.toNat - 5) / 4 := by omega
      rw [highTwo_eq_ofNat, wordValue_loaded h hin (by omega), hbyte]
    · have hbyte : (s.seqPc.toNat + 1 - 6) / 4 = (s.seqPc.toNat - 6) / 4 := by omega
      rw [hhi hin (by omega), hbyte]

/-- In the slots 6, 10, 14, 18 and 22, where W_CLK rises, BUS is the next byte of the tick (R161, R162). -/
theorem bus_at_pulse {s : State} (hbus : BusInv s) (hin : s.inTick) (hpulse : s.seqPc.toNat % 4 = 2)
    (hp : 6 ≤ s.seqPc.toNat) : s.bus = (chipBytes (s.word.getD 0)).getD ((s.seqPc.toNat - 6) / 4) 0 := by
  have hbyte : min ((s.seqPc.toNat - 5) / 4) 4 = (s.seqPc.toNat - 6) / 4 := by omega
  obtain ⟨hlo, hhi⟩ := hbus
  rw [State.bus, hhi hin hp, hlo hin (by omega), hbyte, ← lowSix_eq_ofNat, ← highTwo_eq_ofNat, busOf_highTwo_lowSix]

/-! ### The observer -/

/-- The rising FQ_UD of slot 1 commits the word that the tick before has sent, if there was one (R170, R171). -/
theorem observerInv_afterCommit {s : State} (h : StreamInv s) (hb : s.busy = true) (hp : s.seqPc.toNat = 1) :
    ObserverInv (afterSlot s) := by
  have ⟨hblock, _, hlo, hhi, hcaps, _, _⟩ := h
  have ⟨_, _, _, hrun, _, _, hword⟩ := hblock
  obtain ⟨-, hp29, hlines, -⟩ := hrun hb
  have hsee : (afterSlot s).observer = s.observer.commit := by
    rw [afterSlot_observer, observer_slot hp29 hlines hlo hhi, if_pos hp]
  have hloads : s.loads = s.serviced := by simp [State.loads, hp]
  have hupd : (afterSlot s).updates = s.serviced + 1 := by
    rw [updates_afterSlot hb (by omega), if_pos hp]
    simp [State.updates, hp]
  have hstaging := (staging_afterSlot hb (by omega)).2 (by omega)
  have hpc : (afterSlot s).seqPc.toNat = 2 := by simp [afterSlot_seqPc, nextSlot, endsAt, hp]
  rw [if_neg (by omega)] at hcaps
  unfold ObserverInv
  rw [hsee, if_pos hstaging, hpc, hupd]
  by_cases h0 : s.serviced = 0
  · rw [if_pos h0] at hcaps
    rw [Observer.commit_not_five (by simp [hcaps])]
    simp [h0, hp, hlo, hhi]
  · rw [if_neg h0] at hcaps
    obtain ⟨w, hw⟩ := Option.isSome_iff_exists.1 (word_isSome hblock (by omega))
    have hentry : s.rom.read ((s.cfg.cursorInit.toNat + (s.serviced + 1) - 2) % 64) = some w := by
      rw [← hw, hword (by omega), hloads]
      rfl
    rw [hw] at hcaps
    rw [commit_chipBytes hcaps]
    simp [h0, hp, hlo, hhi, hentry]

/-- What CAPS holds by `ObserverInv`: the bytes sent so far, or all those of the last tick (R169). -/
def State.sentBytes (s : State) : List Byte :=
  if s.staging then (chipBytes (s.word.getD 0)).take ((s.seqPc.toNat - 3) / 4)
  else if s.serviced = 0 then [] else chipBytes (s.word.getD 0)

theorem sentBytes_of_staging {s : State} (h : s.staging) :
    s.sentBytes = (chipBytes (s.word.getD 0)).take ((s.seqPc.toNat - 3) / 4) := if_pos h

theorem sentBytes_of_not_staging {s : State} (h : ¬ s.staging) :
    s.sentBytes = if s.serviced = 0 then [] else chipBytes (s.word.getD 0) := if_neg h

/-- A rising W_CLK sends BUS as the next byte (R162, R169). -/
theorem sentBytes_afterPulse {s : State} (hbus : BusInv s) (hb : s.busy = true) (hpulse : s.seqPc.toNat % 4 = 2)
    (hp : 6 ≤ s.seqPc.toNat) (hp' : s.seqPc.toNat ≤ 22) : (afterSlot s).sentBytes = s.sentBytes ++ [s.bus] := by
  have hin : s.inTick := ⟨hb, by omega⟩
  have hpc : (afterSlot s).seqPc.toNat = s.seqPc.toNat + 1 := by
    rw [afterSlot_seqPc (by omega), nextSlot_inner (by omega)]
  have hlen : (s.seqPc.toNat - 6) / 4 < (chipBytes (s.word.getD 0)).length :=
    (by omega : (s.seqPc.toNat - 6) / 4 < 5)
  have hbefore : (s.seqPc.toNat - 3) / 4 = (s.seqPc.toNat - 6) / 4 := by omega
  have hafter : (s.seqPc.toNat + 1 - 3) / 4 = (s.seqPc.toNat - 6) / 4 + 1 := by omega
  rw [sentBytes_of_staging ((staging_afterSlot hb (by omega)).2 (by omega)), sentBytes_of_staging ⟨hin, by omega⟩,
    afterSlot_word (by omega), if_neg (by omega), hpc, hbefore, hafter,
    bus_at_pulse hbus hin hpulse hp, List.getD_eq_getElem _ _ hlen, List.take_concat_get']

/-- The DDS reset sequence runs before the first tick (R128, R151). -/
theorem serviced_in_initSequence {s : State} (h : BlockInv s) (hb : s.busy = true) (hp : 26 ≤ s.seqPc.toNat) :
    s.serviced = 0 := by
  have ⟨_, _, _, hrun, hserv, _⟩ := h
  obtain ⟨-, -, -, harm⟩ := hrun hb
  exact hserv (by simpa using mt harm.1 (by omega))

/-- A slot in which neither W_CLK nor FQ_UD rises sends nothing: the others of a tick, its END, which leaves its five bytes,
and the DDS reset sequence, before the first tick. -/
theorem sentBytes_afterSlot {s : State} (h : BlockInv s) (hb : s.busy = true) (hcommit : s.seqPc.toNat ≠ 1)
    (hpulse : ¬ (s.seqPc.toNat % 4 = 2 ∧ 6 ≤ s.seqPc.toNat ∧ s.seqPc.toNat ≤ 22)) :
    (afterSlot s).sentBytes = s.sentBytes := by
  have ⟨_, _, _, hrun, _⟩ := h
  obtain ⟨-, hp, -⟩ := hrun hb
  have hstaging := staging_afterSlot hb hp
  rcases (by omega : s.seqPc.toNat = 0 ∨ 2 ≤ s.seqPc.toNat ∧ s.seqPc.toNat ≤ 24 ∨ s.seqPc.toNat = 25
    ∨ 26 ≤ s.seqPc.toNat) with h0 | ⟨h2, h24⟩ | h25 | h26
  · rw [sentBytes_of_not_staging (mt hstaging.1 (by omega)), sentBytes_of_not_staging (s := s) (by omega),
      afterSlot_serviced, afterSlot_word hp]
    simp [h0]
  · have hpc : (afterSlot s).seqPc.toNat = s.seqPc.toNat + 1 := by rw [afterSlot_seqPc hp, nextSlot_inner (by omega)]
    have hsame : (s.seqPc.toNat + 1 - 3) / 4 = (s.seqPc.toNat - 3) / 4 := by omega
    rw [sentBytes_of_staging (hstaging.2 ⟨by omega, h24⟩), sentBytes_of_staging ⟨⟨hb, by omega⟩, h2⟩,
      afterSlot_word hp, hpc, hsame]
    by_cases h3 : s.seqPc.toNat = 3
    · simp [h3]
    · rw [if_neg h3]
  · have hall : (chipBytes (s.word.getD 0)).take ((25 - 3) / 4) = chipBytes (s.word.getD 0) := rfl
    rw [sentBytes_of_not_staging (mt hstaging.1 (by omega)), sentBytes_of_staging ⟨⟨hb, by omega⟩, by omega⟩,
      afterSlot_serviced, afterSlot_word hp, h25, hall]
    simp
  · have hnone := serviced_in_initSequence h hb h26
    have hnone' : (afterSlot s).serviced = 0 := by rw [afterSlot_serviced, hnone, if_neg (by omega)]
    rw [sentBytes_of_not_staging (mt hstaging.1 (by omega)), sentBytes_of_not_staging (s := s) (by omega), hnone, hnone']
    rfl

/-- Outside slot 1 no FQ_UD rises, so ACTIVE has to stay as it is while CAPS follows the bytes sent (R169 to R171). -/
theorem observerInv_of_active_kept {s : State} (hobs : ObserverInv s) (hb : s.busy = true) (hp : s.seqPc.toNat ≤ 29)
    (hcommit : s.seqPc.toNat ≠ 1) (hlo : (afterSlot s).observer.lo = (afterSlot s).dataLo)
    (hhi : (afterSlot s).observer.hi = (afterSlot s).dataHi)
    (hcaps : (afterSlot s).observer.caps = (afterSlot s).sentBytes)
    (hactive : (afterSlot s).observer.active = s.observer.active)
    (hctrl : (afterSlot s).observer.activeCtrl = s.observer.activeCtrl) : ObserverInv (afterSlot s) := by
  obtain ⟨-, -, -, hactive', hctrl'⟩ := hobs
  have hupd : (afterSlot s).updates = s.updates := by rw [updates_afterSlot hb hp, if_neg hcommit]; rfl
  refine ⟨hlo, hhi, hcaps, ?_, ?_⟩
  · rw [hactive, hactive', hupd]
    simp
  · rw [hctrl, hctrl', hupd]

/-- In the slots 6, 10, 14, 18 and 22 the chip captures the byte on BUS (R162, R169). -/
theorem observerInv_afterPulse {s : State} (h : StreamInv s) (hb : s.busy = true) (hp : s.seqPc.toNat % 4 = 2)
    (h6 : 6 ≤ s.seqPc.toNat) (h22 : s.seqPc.toNat ≤ 22) : ObserverInv (afterSlot s) := by
  have ⟨⟨_, _, _, hrun, _⟩, hbus, hobs⟩ := h
  obtain ⟨-, hp29, hlines, -⟩ := hrun hb
  have ⟨hlo, hhi, hcaps, _, _⟩ := hobs
  have hlo' : (afterSlot s).dataLo = s.dataLo := by rw [(afterSlot_buses s).1, dataLo_slot s hp29, if_neg (by omega)]
  have hhi' : (afterSlot s).dataHi = s.dataHi := by rw [(afterSlot_buses s).2, dataHi_slot s hp29, if_neg (by omega)]
  have hsee := observer_slot hp29 hlines hlo hhi
  rw [← afterSlot_observer, if_neg (by omega), if_pos ⟨hp, h6, h22⟩] at hsee
  have hsent : (afterSlot s).observer.caps = (afterSlot s).sentBytes := by
    rw [hsee, sentBytes_afterPulse hbus hb hp h6 h22, hcaps, hlo, hhi]
    rfl
  refine observerInv_of_active_kept hobs hb hp29 (by omega) ?_ ?_ hsent ?_ ?_ <;> rw [hsee]
  · rw [hlo, hlo']
  · rw [hhi, hhi']

/-- The RESET of slot 28 comes before the first tick, where CAPS is empty and ACTIVE Unknown already (R170). -/
theorem observerInv_afterForget {s : State} (h : StreamInv s) (hb : s.busy = true) (hp : s.seqPc.toNat = 28) :
    ObserverInv (afterSlot s) := by
  have ⟨hblock, _, hobs⟩ := h
  have ⟨_, _, _, hrun, _⟩ := hblock
  obtain ⟨-, hp29, hlines, -⟩ := hrun hb
  have ⟨hlo, hhi, hcaps, hactive, hctrl⟩ := hobs
  have hlo' : (afterSlot s).dataLo = s.dataLo := by rw [(afterSlot_buses s).1, dataLo_slot s hp29, if_neg (by omega)]
  have hhi' : (afterSlot s).dataHi = s.dataHi := by rw [(afterSlot_buses s).2, dataHi_slot s hp29, if_neg (by omega)]
  have hnone := serviced_in_initSequence hblock hb (by omega)
  have hupd : s.updates = 0 := by simp [State.updates, hnone, hp]
  have hforgotten : (afterSlot s).observer = s.observer := by
    rw [afterSlot_observer, observer_slot hp29 hlines hlo hhi, if_neg (by omega), if_neg (by omega), if_pos hp]
    rw [hupd, if_pos (by omega)] at hactive hctrl
    rw [if_neg (by omega), if_pos hnone] at hcaps
    rw [← hcaps, ← hactive, ← hctrl]
  have hsent : s.observer.caps = (afterSlot s).sentBytes :=
    hcaps.trans (sentBytes_afterSlot hblock hb (by omega) (by omega)).symm
  refine observerInv_of_active_kept hobs hb hp29 (by omega) ?_ ?_ ?_ ?_ ?_ <;> rw [hforgotten]
  · rw [hlo, hlo']
  · rw [hhi, hhi']
  · exact hsent

/-- In every other slot the chip sees the buses move at most (R168). -/
theorem observerInv_afterOther {s : State} (h : StreamInv s) (hb : s.busy = true) (hcommit : s.seqPc.toNat ≠ 1)
    (hpulse : ¬ (s.seqPc.toNat % 4 = 2 ∧ 6 ≤ s.seqPc.toNat ∧ s.seqPc.toNat ≤ 22)) (hforget : s.seqPc.toNat ≠ 28) :
    ObserverInv (afterSlot s) := by
  have ⟨hblock, _, hobs⟩ := h
  have ⟨_, _, _, hrun, _⟩ := hblock
  obtain ⟨-, hp29, hlines, -⟩ := hrun hb
  have ⟨hlo, hhi, hcaps, _, _⟩ := hobs
  have hsent : s.observer.caps = (afterSlot s).sentBytes :=
    hcaps.trans (sentBytes_afterSlot hblock hb hcommit hpulse).symm
  have hsee := observer_slot hp29 hlines hlo hhi
  rw [← afterSlot_observer, if_neg hcommit, if_neg hpulse, if_neg hforget, ← (afterSlot_buses s).1,
    ← (afterSlot_buses s).2] at hsee
  refine observerInv_of_active_kept hobs hb hp29 hcommit ?_ ?_ ?_ ?_ ?_ <;> rw [hsee]
  exact hsent

/-- A running sequencer keeps what the observer holds, by what its slot lets the chip see. -/
theorem observerInv_afterSlot {s : State} (h : StreamInv s) (hb : s.busy = true) : ObserverInv (afterSlot s) := by
  by_cases hcommit : s.seqPc.toNat = 1
  · exact observerInv_afterCommit h hb hcommit
  by_cases hpulse : s.seqPc.toNat % 4 = 2 ∧ 6 ≤ s.seqPc.toNat ∧ s.seqPc.toNat ≤ 22
  · obtain ⟨h2, h6, h22⟩ := hpulse
    exact observerInv_afterPulse h hb h2 h6 h22
  by_cases hforget : s.seqPc.toNat = 28
  · exact observerInv_afterForget h hb hforget
  · exact observerInv_afterOther h hb hcommit hpulse hforget

/-! ### The events -/

/-- An event that is no line write leaves what the observer holds (R168). -/
theorem observerInv_note {s : State} (h : ObserverInv s) {e : Event} (he : ∀ o : Observer, o.see e = o) :
    ObserverInv (s.note e) := by
  have hsee : (s.note e).observer = s.observer := (observe_concat _ _).trans (he _)
  rw [ObserverInv, hsee]
  exact h

/-- A sequence starts before its first byte is sent, as an idle block stands after its last (R169, R170). -/
theorem observerInv_startSequence {s : State} (h : ObserverInv s) (hb : s.busy = false) {entry : BitVec 5}
    (he : ¬ (entry.toNat ≤ 25 ∧ 2 ≤ entry.toNat)) : ObserverInv (s.startSequence entry) := by
  have hidle : ¬ s.staging := by simp [State.staging, State.inTick, hb]
  have hstart : ¬ (s.startSequence entry).staging := by simpa [State.staging, State.inTick] using he
  simp only [ObserverInv, State.updates, hidle, if_false] at h
  simp only [ObserverInv, State.updates, hstart, if_false]
  exact h

/-- BUILD commits before the first tick, while ACTIVE is Unknown (R171). -/
theorem observerInv_commitTable {s : State} (h : ObserverInv s) (hb : s.busy = false) (hserv : s.serviced = 0) :
    ObserverInv s.commitTable := by
  have hupd : s.updates = 0 := by simp [State.updates, State.inTick, hb, hserv]
  have hupd' : s.commitTable.updates = 0 := hupd
  obtain ⟨hlo, hhi, hcaps, hactive, hctrl⟩ := h
  refine ⟨hlo, hhi, hcaps, ?_, hctrl⟩
  rw [hupd']
  rw [hupd] at hactive
  exact hactive

/-- A sequence starts before its first byte (R162). -/
theorem busInv_startSequence (s : State) {entry : BitVec 5} (he : ¬ (entry.toNat ≤ 25 ∧ 2 ≤ entry.toNat)) :
    BusInv (s.startSequence entry) :=
  ⟨fun hin h5 => absurd ⟨hin.2, le_trans (by decide) h5⟩ he, fun hin h6 => absurd ⟨hin.2, le_trans (by decide) h6⟩ he⟩

theorem streamInv_tick {s t : State} (h : StreamInv s) (ho : TickOutcome s t) : StreamInv t := by
  obtain ⟨⟨hc, hs⟩, hbus, hobs⟩ := h
  refine ⟨⟨controlInv_tick hc ho, sequenceInv_tick hs ho⟩, ?_⟩
  cases ho with
  | ignored => exact ⟨hbus, hobs⟩
  | accepted hr ha =>
    have he : ¬ (tickEntry.toNat ≤ 25 ∧ 2 ≤ tickEntry.toNat) := by decide
    exact ⟨busInv_startSequence s he, observerInv_note (observerInv_startSequence hobs hr.1 he) fun _ => rfl⟩
  | delayed => exact ⟨hbus, observerInv_note (e := .tickDelayed) hobs fun _ => rfl⟩
  | lost => exact ⟨hbus, observerInv_note (e := .tickDropped) hobs fun _ => rfl⟩

theorem streamInv_command {s t : State} (h : StreamInv s) (ho : CommandOutcome s t) : StreamInv t := by
  have ⟨⟨hc, hs⟩, hbus, hobs⟩ := h
  refine ⟨⟨controlInv_command hc ho, sequenceInv_command hs ho⟩, ?_⟩
  cases ho with
  | unchanged => exact ⟨hbus, hobs⟩
  | raised hr code info =>
    rw [raise_eq_faultRecorded hr.2]
    exact ⟨hbus, observerInv_note (e := .fault code info) hobs fun _ => rfl⟩
  | committed hw =>
    obtain ⟨⟨hb, -⟩, ha, -⟩ := hw
    obtain ⟨-, -, -, hserv, -⟩ := hs
    exact ⟨hbus, observerInv_commitTable hobs hb (hserv ha)⟩
  | initStarted hr =>
    have he : ¬ (initEntry.toNat ≤ 25 ∧ 2 ≤ initEntry.toNat) := by decide
    exact ⟨busInv_startSequence s he, observerInv_startSequence hobs hr.1 he⟩
  | nowArmed => exact ⟨hbus, hobs⟩

theorem streamInv_sequencer {s t : State} (h : StreamInv s) (ho : SequencerOutcome s t) : StreamInv t := by
  have ⟨hblock, hbus, hobs⟩ := h
  refine ⟨blockInv_sequencer hblock ho, ?_⟩
  by_cases hr : s.running
  · have ⟨_, hm, _, hrun, _⟩ := hblock
    obtain ⟨-, hp, -⟩ := hrun hr.1
    rw [sequencerOutcome_slot ho hr hm hp]
    exact ⟨busInv_afterSlot hblock hbus hr.1, observerInv_afterSlot h hr.1⟩
  · cases ho with
    | stopped => exact ⟨hbus, hobs⟩
    | illegal hr' => exact absurd hr' hr
    | microOp hr' => exact absurd hr' hr

/-- PWR_RESET empties the trace, so the observer starts again beside a block that starts again (R40, R168). -/
theorem streamInv_pwrReset {s : State} (hm : s.mp = microProgram) : StreamInv s.pwrReset := by
  refine ⟨⟨controlInv_pwrReset s, sequenceInv_pwrReset hm⟩, ⟨(nomatch ·.1), (nomatch ·.1)⟩, ?_⟩
  simp [ObserverInv, State.updates, State.inTick, State.observer, observe, Observer.start]

theorem keptByEvents_streamInv : KeptByEvents StreamInv :=
  .of_outcomes (fun _ _ h => h) (fun _ _ h => h) (fun _ ⟨⟨_, hm, _⟩, _⟩ => streamInv_pwrReset hm)
    (fun _ _ => streamInv_tick) (fun _ _ => streamInv_command) fun _ _ => streamInv_sequencer

/-- The stream invariant holds at power-on of every configuration with every schedule. -/
theorem streamInv_boot (c : Config) (l : List Input) : StreamInv (State.boot c l) := by
  rw [← boot_pwrReset]
  exact streamInv_pwrReset rfl

/-- Every state that a run reaches meets the invariant of the block and its chip observer. -/
theorem Reaches.streamInv {c : Config} {l : List Input} {n : Nat} {t : State} (h : Reaches c l n t) : StreamInv t :=
  keptByEvents_streamInv.reaches (streamInv_boot c l) h

end Sys2Proof.Machine
end

section
/-! PROOFS. The statements of spec/44_dds_interface.md on the observer and on the word the chip uses. -/

namespace Sys2Proof.Machine

/-- Settles O45: the observer sees the last event after the rest of the trace, and a commit counts the captured bytes. -/
theorem observerCapturesAndCommits : Obligations.ObserverCapturesAndCommits := by
  rintro tr o rfl
  simp only [observe_concat]
  exact ⟨rfl, fun _ _ _ _ _ h => Observer.commit_five h, fun h => Observer.commit_not_five h, rfl⟩

/-- Settles O60, by the stream invariant: after the commit of tick k the pulses counted are k = SERVICED + 1, and the word it
commits is an entry of the table of an armed block. -/
theorem chipRunsOneTickBehind : Obligations.ChipRunsOneTickBehind := by
  intro c l n t h hin hp
  obtain ⟨⟨hc, -, -, hrun, -⟩, -, -, -, -, hactive, hctrl⟩ := h.streamInv
  obtain ⟨-, -, -, harm⟩ := hrun hin.1
  have hupd : t.updates = t.serviced + 1 := by rw [State.updates, if_pos ⟨hin, hp⟩]
  rw [hupd, h.cfg_eq] at hactive
  rw [hupd] at hctrl
  refine ⟨fun h0 => ⟨by rw [hactive, if_pos (by omega)], by rw [hctrl, if_pos (by omega)]⟩, fun h1 => ?_⟩
  obtain ⟨w, hw⟩ := Option.isSome_iff_exists.1
    (armed_entry_isSome hc (harm.2 hin.2) (Nat.mod_lt (c.cursorInit.toNat + t.serviced - 1) (by decide : 0 < 64)))
  have hentry : c.cursorInit.toNat + (t.serviced + 1) - 2 = c.cursorInit.toNat + t.serviced - 1 := by omega
  rw [if_neg (by omega), hentry] at hactive
  rw [if_neg (by omega)] at hctrl
  exact ⟨w, hw, hactive.trans hw, hctrl⟩

end Sys2Proof.Machine
end

section
/-! PROOFS. The fields of a micro-op word, and what the decoder and the encoder make of them (spec/30_encoding.md R73 to R77,
R82, R86). -/

namespace Sys2Proof

/-! ### The fields of a word -/

/-- OP is bits 7:4 (R73). -/
theorem toNat_opField (m : Byte) : (opField m).toNat = m.toNat / 16 := by
  have := m.isLt
  simp [opField, Nat.shiftRight_eq_div_pow]
  omega

/-- SEL is bits 2:0 (R73). -/
theorem toNat_selField (m : Byte) : (selField m).toNat = m.toNat % 8 := by simp [selField]

/-- A word is made of its three fields (R73, R86). -/
theorem microOpWord_fields (m : Byte) : microOpWord (opField m) (endField m) (selField m) = m := by
  revert m
  decide

/-- The fields of a word are those it is made of (R73, R86). -/
@[simp] theorem fields_microOpWord (op : BitVec 4) (last : Bool) (sel : BitVec 3) :
    opField (microOpWord op last sel) = op ∧ endField (microOpWord op last sel) = last
      ∧ selField (microOpWord op last sel) = sel := by
  revert op last sel
  decide

/-! ### SEL -/

/-- SEL of BYTEj has bit 2 clear, and j in the two bits below it (R75). -/
@[simp] theorem byteSel_fields (j : BitVec 2) : (byteSel j)[2] = false ∧ (byteSel j).setWidth 2 = j := by
  revert j
  decide

/-- A SEL with bit 2 clear selects the byte of its other two bits (R75). -/
theorem byteSel_setWidth {sel : BitVec 3} (h : sel.getLsbD 2 = false) : byteSel (sel.setWidth 2) = sel := by
  revert sel
  decide

/-- Bit 2 of SEL is set from 4 on (R75). -/
theorem getLsbD_two_eq_false (sel : BitVec 3) : sel.getLsbD 2 = false ↔ sel.toNat < 4 := by
  revert sel
  decide

/-! ### The two forms of a micro-op -/

/-- An OP without operand decodes when SEL is 000 (R82). -/
theorem decodeSimple_ok_iff {m : Byte} {f : Bool → Instr} {i : Instr} :
    decodeSimple m f = .ok i ↔ selField m = 0 ∧ f (endField m) = i := by
  unfold decodeSimple
  split <;> simp_all

theorem decodeSimple_error_iff (m : Byte) (f : Bool → Instr) :
    (∃ e, decodeSimple m f = .error e) ↔ m.toNat % 8 ≠ 0 := by
  have hsel : selField m = 0 ↔ m.toNat % 8 = 0 := by rw [← toNat_selField, ← BitVec.toNat_inj]; rfl
  unfold decodeSimple
  split <;> simp_all

/-- OUT.LO and OUT.HI decode when SEL is that of a byte or of CTRL (R75, R82). -/
theorem decodeOut_ok {m : Byte} {byte : BitVec 2 → Bool → Instr} {ctrl : Bool → Instr} {i : Instr}
    (h : decodeOut m byte ctrl = .ok i) :
    (∃ j, selField m = byteSel j ∧ i = byte j (endField m)) ∨ selField m = ctrlSel ∧ i = ctrl (endField m) := by
  unfold decodeOut at h
  split at h
  · next hs => cases h; exact .inl ⟨_, (byteSel_setWidth hs).symm, rfl⟩
  split at h
  · next hs => cases h; exact .inr ⟨hs, rfl⟩
  · cases h

theorem decodeOut_error_iff (m : Byte) (byte : BitVec 2 → Bool → Instr) (ctrl : Bool → Instr) :
    (∃ e, decodeOut m byte ctrl = .error e) ↔ 5 ≤ m.toNat % 8 := by
  have hbyte : (selField m).getLsbD 2 = false ↔ m.toNat % 8 < 4 := by rw [getLsbD_two_eq_false, toNat_selField]
  have hctrl : selField m = 4 ↔ m.toNat % 8 = 4 := by rw [← toNat_selField, ← BitVec.toNat_inj]; rfl
  unfold decodeOut
  simp only [hbyte, hctrl]
  split_ifs <;> simp <;> omega

/-! ### Decoder and encoder -/

section
variable (op : BitVec 4) (last : Bool)

/-- A word with SEL 000 is one of an OP without operand (R76, R82). -/
@[simp] theorem decodeSimple_microOpWord (f : Bool → Instr) : decodeSimple (microOpWord op last 0#3) f = .ok (f last) := by
  simp [decodeSimple]

variable (byte : BitVec 2 → Bool → Instr) (ctrl : Bool → Instr)

/-- A word with SEL of BYTEj sends that byte (R75, R82). -/
@[simp] theorem decodeOut_byteSel (j : BitVec 2) :
    decodeOut (microOpWord op last (byteSel j)) byte ctrl = .ok (byte j last) := by
  simp [decodeOut]

/-- A word with SEL of CTRL sends the control byte (R75, R82). -/
@[simp] theorem decodeOut_ctrlSel : decodeOut (microOpWord op last ctrlSel) byte ctrl = .ok (ctrl last) := by
  simp [decodeOut, ctrlSel]

end

/-- The decoder reads the code word of an instruction as that instruction: OP picks the form, and SEL its operand. -/
theorem decode_encode (i : Instr) : decode (encode i) = .ok i := by
  cases i <;> simp [encode, decode, decodeMicroOp, decodeCommand]

/-- A word with these fields is the one with this OP and SEL. -/
theorem eq_microOpWord {m : Byte} {op : BitVec 4} {sel : BitVec 3} (hop : (opField m).toNat = op.toNat)
    (hsel : selField m = sel) : microOpWord op (endField m) sel = m := by
  rw [← hsel, ← BitVec.eq_of_toNat_eq hop, microOpWord_fields]

theorem encode_of_decodeMicroOp {m : Byte} {i : Instr} (h : decodeMicroOp m = .ok i) : encode i = .microOp m := by
  unfold decodeMicroOp at h
  split at h
  case h_9 hop =>
    rcases decodeOut_ok h with ⟨j, hsel, rfl⟩ | ⟨hsel, rfl⟩ <;> exact congrArg _ (eq_microOpWord hop hsel)
  case h_10 hop =>
    rcases decodeOut_ok h with ⟨j, hsel, rfl⟩ | ⟨hsel, rfl⟩ <;> exact congrArg _ (eq_microOpWord hop hsel)
  case h_12 => cases h
  all_goals
    next hop =>
    obtain ⟨hsel, rfl⟩ := decodeSimple_ok_iff.1 h
    exact congrArg _ (eq_microOpWord hop hsel)

theorem encode_of_decodeCommand {c : Cmd} {i : Instr} (h : decodeCommand c = .ok i) : encode i = .command c := by
  unfold decodeCommand at h
  split at h <;> cases h
  all_goals
    next hc => exact congrArg _ (BitVec.eq_of_toNat_eq (by simpa using hc.symm))

theorem decodeMicroOp_error_iff (m : Byte) :
    (∃ e, decodeMicroOp m = .error e) ↔
      (m.toNat / 16 = 0 ∨ 12 ≤ m.toNat / 16)
        ∨ ((m.toNat / 16 = 9 ∨ m.toNat / 16 = 10) ∧ 5 ≤ m.toNat % 8)
        ∨ (m.toNat / 16 ≠ 9 ∧ m.toNat / 16 ≠ 10 ∧ m.toNat % 8 ≠ 0) := by
  unfold decodeMicroOp
  rw [toNat_opField]
  split
  all_goals simp only [decodeSimple_error_iff, decodeOut_error_iff, Except.error.injEq, exists_eq', imp_false, true_iff] at *
  all_goals omega

end Sys2Proof

namespace Sys2Proof.Machine

/-- Settles O1, by the fields of the word that the encoder makes. -/
theorem decodeInvertsEncode : Obligations.DecodeInvertsEncode := decode_encode

/-- Settles O2: a legal word has the OP and the SEL of the instruction it decodes to. -/
theorem encodeInvertsDecode : Obligations.EncodeInvertsDecode := by
  intro w i h
  cases w with
  | microOp m => exact encode_of_decodeMicroOp h
  | command c => exact encode_of_decodeCommand h

/-- Settles O3, OP by OP: the reserved ones, the two with a source, and those that take SEL 000 alone. -/
theorem illegalMicroOpWords : Obligations.IllegalMicroOpWords := decodeMicroOp_error_iff

/-- Settles O4, word by word and slot by slot. -/
theorem writtenWordsDecode : Obligations.WrittenWordsDecode :=
  ⟨rfl, rfl, rfl, rfl, rfl, rfl, rfl, rfl, rfl, rfl, rfl, rfl, rfl, rfl, by decide⟩

end Sys2Proof.Machine
end

section
/-! PROOFS. The invariants over one step, at power-on and at reset; and that a step always answers a next state (R13). -/

namespace Sys2Proof.Machine

/-- Settles O52: each event keeps the three invariants whatever the micro-program, and the whole invariant over R78. -/
theorem stepKeepsBlockInv : Obligations.StepKeepsBlockInv := fun s _ e =>
  ⟨fun h => (keptByEvents_controlInv.step s h).of_eq e, fun h => (keptByEvents_blockInv.step s h).of_eq e⟩

/-- Settles O53: each event keeps the invariant of the block and its observer. -/
theorem stepKeepsStreamInv : Obligations.StepKeepsStreamInv :=
  fun s _ h e => (keptByEvents_streamInv.step s h).of_eq e

/-- Settles O54; `State.reset` is power-on of the platform with an empty schedule. -/
theorem invariantsHoldAtReset : Obligations.InvariantsHoldAtReset :=
  ⟨streamInv_boot, streamInv_boot Config.platform []⟩

/-- Settles O55: no event writes the two constants. -/
theorem stepKeepsConstants : Obligations.StepKeepsConstants :=
  fun s _ e => ((keptByEvents_constants s.cfg s.mp).step s ⟨rfl, rfl⟩).of_eq e

/-- Settles O41: every event answers a next state, so every step does. -/
theorem everyStepAnswersNext : Obligations.EveryStepAnswersNext := fun s =>
  have ⟨t, e, _⟩ := (keptByEvents_constants s.cfg s.mp).step s ⟨rfl, rfl⟩
  ⟨t, e⟩

end Sys2Proof.Machine
end

section
/-! PROOFS. The statements on single micro-ops: each effect in the terms of `Safety.lean`, and what a micro-op without END
leaves unchanged (spec/41_pin_microops.md R109 to R121). -/

namespace Sys2Proof.Machine

/-! ### Line micro-ops -/

/-- Settles O6, by the effect of TRIG.SET (R111). -/
theorem trigSetDrivesOne : Obligations.TrigSetDrivesOne :=
  fun s last => ⟨by cases last <;> rfl, exec_microOp_retired (i := .trigSet last) rfl s⟩

/-- Settles O8, by the effect of FQUD.TGL (R113). -/
theorem fqudTglInverts : Obligations.FqudTglInverts :=
  fun s last => ⟨by cases last <;> rfl, exec_microOp_retired (i := .fqudTgl last) rfl s⟩

/-- Settles O10, by the effect of WCLK.TGL, and slot by slot (R115). -/
theorem wclkTglInverts : Obligations.WclkTglInverts :=
  ⟨by decide, fun s last => ⟨by cases last <;> rfl, exec_microOp_retired (i := .wclkTgl last) rfl s⟩⟩

/-- Settles O12, by the effect of RST.CLR (R117). -/
theorem rstClrDrivesZero : Obligations.RstClrDrivesZero :=
  ⟨rfl, rfl, fun s last => ⟨by cases last <;> rfl, exec_microOp_retired (i := .rstClr last) rfl s⟩⟩

/-! ### Data micro-ops -/

/-- LOAD.W from an entry that holds a value takes it and draws nothing (R118). -/
theorem loadWord_of_some {s : State} {w : Word} (h : s.rom.read s.cursor.toNat = some w) :
    s.loadWord = { s with word := some w } := by
  simp [State.loadWord_eq, State.romAtCursor, h]

/-- OUT.LO drives DATA_LO alone (R119). -/
theorem outLow_eq (s : State) (src : Source) :
    s.outLow src = { s.traced (.dataLo (lowSix (src.value s.wordValue))) with
      dataLo := lowSix (src.value s.wordValue) } := rfl

/-- OUT.HI drives DATA_HI alone (R120). -/
theorem outHigh_eq (s : State) (src : Source) :
    s.outHigh src = { s.traced (.dataHi (highTwo (src.value s.wordValue))) with
      dataHi := highTwo (src.value s.wordValue) } := rfl

/-- Reading a WORD that holds a value draws nothing (R119). -/
theorem countDraw_some (s : State) (w : Word) : s.countDraw (some w) = s := rfl

/-- The control byte drives both buses to 0 (R72). -/
theorem controlByte_fields : lowSix controlByte = 0 ∧ highTwo controlByte = 0 := by decide

/-- Settles O13: the entry at CURSOR holds the value that WORD takes. -/
theorem loadWordCopiesEntry : Obligations.LoadWordCopiesEntry := by
  intro s last w hw
  rw [exec_microOp_retired (i := .loadW last) rfl, microOpEffect, loadWord_of_some hw]

/-- Settles O14: bits 5:0 of byte_j are the quotient modulo 64. -/
theorem outLowDrivesSixBits : Obligations.OutLowDrivesSixBits := by
  refine ⟨fun s last => ?_, fun s last j w v hw hv => ?_⟩
  · rw [exec_microOp_retired (i := .outLoCtrl last) rfl, microOpEffect, outLow_eq, Source.value, controlByte_fields.1]
  have hbits : lowSix (byteOf w j) = v := by
    rw [lowSix_byteOf]
    exact BitVec.eq_of_toNat_eq (by simp [hv])
  have hsrc : Source.value s.wordValue (.byte j) = byteOf w j := by rw [State.wordValue, hw]; rfl
  rw [exec_microOp_retired (i := .outLoByte j last) rfl, microOpEffect, hw, countDraw_some, outLow_eq, hsrc, hbits]

/-- Settles O15: bits 7:6 of byte_j are the quotient modulo 256, over 64. -/
theorem outHighDrivesTwoBits : Obligations.OutHighDrivesTwoBits := by
  refine ⟨fun s last => ?_, fun s last j w v hw hv => ?_⟩
  · rw [exec_microOp_retired (i := .outHiCtrl last) rfl, microOpEffect, outHigh_eq, Source.value, controlByte_fields.2]
  have hbits : highTwo (byteOf w j) = v := by
    rw [highTwo_byteOf, ← hv, BitVec.ofNat_toNat, BitVec.setWidth_eq]
  have hsrc : Source.value s.wordValue (.byte j) = byteOf w j := by rw [State.wordValue, hw]; rfl
  rw [exec_microOp_retired (i := .outHiByte j last) rfl, microOpEffect, hw, countDraw_some, outHigh_eq, hsrc, hbits]

/-- Settles O16: the read takes the free value of this draw, and the draw is counted. -/
theorem readsWithoutValueRun : Obligations.ReadsWithoutValueRun := by
  intro s last j
  refine ⟨fun hrom => ⟨s.romAtCursor, ?_⟩, fun hword =>
    ⟨⟨lowSix (byteOf s.wordValue j), ?_⟩, ⟨highTwo (byteOf s.wordValue j), ?_⟩⟩⟩
  · rw [exec_microOp_retired (i := .loadW last) rfl, microOpEffect, State.loadWord_eq, hrom]
    rfl
  · rw [exec_microOp_retired (i := .outLoByte j last) rfl, microOpEffect, hword, outLow_eq]
    rfl
  · rw [exec_microOp_retired (i := .outHiByte j last) rfl, microOpEffect, hword, outHigh_eq]
    rfl

/-! ### What a micro-op without END leaves unchanged -/

/-- Settles O19: the effect writes lines, buses, CURSOR, WORD, the trace and the draws at most, and without END only SEQ_PC
follows. -/
theorem microOpWithoutEndKeepsFlags : Obligations.MicroOpWithoutEndKeepsFlags := by
  intro i s h
  refine ⟨{ microOpEffect i s with seqPc := s.seqPc + 1 }, exec_microOp_retired h s, rfl, ?_⟩
  simp

end Sys2Proof.Machine
end

section
/-! PROOFS. ROUND is admissible (spec/40_table_builder.md R102). -/

namespace Sys2Proof.Machine

/-- ROUND is the floor, or one more (R102). -/
theorem roundQuotient_bounds (r : Rounding) (n d : Nat) :
    n / d ≤ roundQuotient r n d ∧ roundQuotient r n d ≤ n / d + 1 := by
  unfold roundQuotient
  split_ifs <;> omega

/-- ROUND is exact on naturals (R102). -/
theorem roundQuotient_of_dvd (r : Rounding) {n d : Nat} (h : n % d = 0) : roundQuotient r n d = n / d := by
  rw [roundQuotient, if_pos h]

/-- Off the naturals the ceiling is one more than the floor. -/
theorem ceil_eq_succ {n d : Nat} (hd : 0 < d) (h : n % d ≠ 0) : (n + d - 1) / d = n / d + 1 := by
  have hsplit := Nat.div_add_mod n d
  have hlt := Nat.mod_lt n hd
  have hsum : n + d - 1 = (n % d - 1) + d * (n / d + 1) := by
    rw [Nat.mul_succ]
    omega
  rw [hsum, Nat.add_mul_div_left _ _ hd, Nat.div_eq_of_lt (by omega), Nat.zero_add]

/-- In one unit interval the larger quotient has the larger fraction. -/
theorem mod_cross_le {n d n' d' : Nat} (hle : n * d' ≤ n' * d) (hq : n / d = n' / d') : n % d * d' ≤ n' % d' * d := by
  have hn : n * d' = d * (n' / d') * d' + n % d * d' := by rw [← Nat.add_mul, ← hq, Nat.div_add_mod]
  have hn' : n' * d = d' * (n' / d') * d + n' % d' * d := by rw [← Nat.add_mul, Nat.div_add_mod]
  have hfloor : d * (n' / d') * d' = d' * (n' / d') * d := by ring
  omega

section
variable {n d n' d' : Nat} (hd : 0 < d) (hd' : 0 < d') (hle : n * d' ≤ n' * d)
include hd hd' hle

/-- The floor is monotone in the quotient. -/
theorem div_le_div_of_cross : n / d ≤ n' / d' := by
  calc n / d = n * d' / (d * d') := (Nat.mul_div_mul_right _ _ hd').symm
    _ ≤ n' * d / (d * d') := Nat.div_le_div_right hle
    _ = n' / d' := by rw [Nat.mul_comm d, Nat.mul_div_mul_right _ _ hd]

/-- A larger fraction rounds up where a smaller one does (R102). -/
theorem cutUp_mono {c : Cut} (h : cutUp c n d = true) : cutUp c n' d' = true := by
  have hscaled : n * c.den * d' ≤ n' * c.den * d := by
    calc n * c.den * d' = c.den * (n * d') := by ring
      _ ≤ c.den * (n' * d) := Nat.mul_le_mul_left _ hle
      _ = n' * c.den * d := by ring
  have hcut : c.num * d' * d = c.num * d * d' := by ring
  rw [cutUp_iff] at h ⊢
  rcases h with hlt | ⟨heq, hincl⟩
  · refine .inl (Nat.lt_of_mul_lt_mul_right (a := d) ?_)
    rw [hcut]
    exact (Nat.mul_lt_mul_of_pos_right hlt hd').trans_le hscaled
  · rw [← heq, ← hcut] at hscaled
    rcases (Nat.le_of_mul_le_mul_right hscaled hd).lt_or_eq with hlt | heq'
    · exact .inl hlt
    · exact .inr ⟨heq', hincl⟩

/-- ROUND is monotone: over two unit intervals by their floors, inside one by its cut (R102). -/
theorem roundQuotient_mono (r : Rounding) : roundQuotient r n d ≤ roundQuotient r n' d' := by
  have hfloor := div_le_div_of_cross hd hd' hle
  have hn := roundQuotient_bounds r n d
  have hn' := roundQuotient_bounds r n' d'
  rcases hfloor.lt_or_eq with hlt | heq
  · omega
  have hrem := mod_cross_le hle heq
  by_cases h0 : n % d = 0
  · rw [roundQuotient_of_dvd r h0]
    omega
  by_cases hup : cutUp (cutAt r (n / d)) (n % d) d = true
  · have h0' : n' % d' ≠ 0 := fun h => by
      rw [h, Nat.zero_mul] at hrem
      exact absurd hrem (Nat.mul_pos (Nat.pos_of_ne_zero h0) hd').not_ge
    have hup' := cutUp_mono hd hd' hrem hup
    rw [roundQuotient, roundQuotient, if_neg h0, if_neg h0', if_pos hup, ← heq, if_pos hup']
  · rw [roundQuotient, if_neg h0, if_neg hup]
    omega

end

/-- Settles O26, by the cut of the unit interval that the quotient lies in. -/
theorem roundIsAdmissible : Obligations.RoundIsAdmissible := by
  refine ⟨fun r n d hd => ⟨?_, ?_, fun n' d' hd' hle => roundQuotient_mono hd hd' hle r⟩, fun n d hd =>
    roundQuotient_halfUp n hd⟩
  · by_cases h0 : n % d = 0
    · exact .inl (roundQuotient_of_dvd r h0)
    · have := roundQuotient_bounds r n d
      rw [ceil_eq_succ hd h0]
      omega
  · rw [roundQuotient_of_dvd r (Nat.mul_mod_left n d), Nat.mul_div_cancel n hd]

end Sys2Proof.Machine
end

section
/-! PROOFS. STATUS (R33), PWR_RESET (R192), the TICK in one step (R127, R133), and the commands NOP, DDS_INIT and ARM (R150 to
R155). -/

namespace Sys2Proof.Machine

/-! ### STATUS -/

/-- Two fields side by side are the upper one shifted by the width of the lower one. -/
theorem toNat_append_eq {m n : Nat} (x : BitVec m) (y : BitVec n) : (x ++ y).toNat = x.toNat * 2 ^ n + y.toNat := by
  rw [BitVec.toNat_append, ← Nat.shiftLeft_add_eq_or_of_lt y.isLt, Nat.shiftLeft_eq]

/-- Settles O44: STATUS is its fields side by side, from bit 0 up. -/
theorem statusLayout : Obligations.StatusLayout := by
  intro s
  have hinfo := s.faultInfo.isLt
  have h4 : (0 : BitVec 4).toNat = 0 := rfl
  have h2 : (0 : BitVec 2).toNat = 0 := rfl
  constructor
  · simp only [State.status, toNat_append_eq, BitVec.toNat_ofBool, h4, h2]
    omega
  · rw [State.faultInfoView, BitVec.toNat_setWidth]
    omega

/-! ### PWR_RESET -/

/-- PWR_RESET leaves R40's values over what survives it (R192, R193). -/
theorem pwrReset_eq_afterPowerReset (s : State) : s.pwrReset = s.afterPowerReset := rfl

/-- A cycle at the front of the schedule is this step, whatever is held (R209). -/
theorem step_cycle {s : State} {pwr tick : Bool} {cmd : Option Cmd} {rest : List Input}
    (h : s.inputs = .cycle pwr tick cmd :: rest) : step s = cycleStep pwr tick cmd { s with inputs := rest } := by
  rw [step_cons h rfl]
  simp [Input.comesFirst, eventStep]

/-- Settles O38: at either level a PWR_RESET goes before a held command and ends the step. -/
theorem powerResetRestoresResetValues : Obligations.PowerResetRestoresResetValues := by
  refine fun s rest => ⟨fun h => ?_, fun tick cmd h => ?_⟩
  · rw [step_cons h rfl, ← pwrReset_eq_afterPowerReset]
    simp [Input.comesFirst, eventStep]
  · rw [step_cycle h, ← pwrReset_eq_afterPowerReset]
    rfl

/-! ### The TICK in one step -/

/-- Settles O33: the TICK arrives in this step, and an idle armed block takes it. -/
theorem tickAcceptedWhenIdle : Obligations.TickAcceptedWhenIdle := by
  intro s rest hr ha hh h
  rw [step_tick h (.inl hh), tick_accepted (s := { s with inputs := rest }) hr ha]

/-- An overrun under Either is one under Delay or one under Drop, after a draw (R133). -/
theorem overrunTick_either {s : State} (ho : s.cfg.overrun = .either) :
    s.pending = false ∧ s.overrunTick = { s with draws := s.draws + 1 }.tickHeld
      ∨ s.overrunTick = { s with draws := s.draws + 1 }.tickLost := by
  cases hd : Config.delaysOverrun s.draws <;> cases hp : s.pending <;>
    simp [State.overrunTick, State.overrunPolicy, State.holdTick, State.loseTick, State.note, State.tickHeld,
      State.tickLost, ho, hd, hp]

/-- Settles O36: the TICK arrives as an overrun in this step, and the draw decides. -/
theorem overrunEitherIsOneOfTwo : Obligations.OverrunEitherIsOneOfTwo := by
  intro s rest hr ha h ho
  rw [step_tick h (.inr hr), tick_overrun (s := { s with inputs := rest }) hr ha]
  rcases overrunTick_either (s := { s with inputs := rest }) ho with ⟨hp, e⟩ | e <;> rw [e]
  · exact .inl ⟨hp, rfl⟩
  · exact .inr rfl

/-! ### Commands on an idle block -/

/-- NOP has no effect, whether the block is ready or not (R150). -/
theorem exec_nop (s : State) : exec .nop s = .next s := by
  simp [exec, execNop, State.accept_eq]

/-- Settles O20. -/
theorem nopHasNoEffect : Obligations.NopHasNoEffect := ⟨rfl, exec_nop⟩

/-- Settles O27: before ARM an accepted DDS_INIT starts its sequence, again as the first time. -/
theorem ddsInitStartsSequence : Obligations.DdsInitStartsSequence := fun _ hr ha => exec_ddsInit_starts hr ha

/-- Before ARM an idle block tests BUILT and INITD at an ARM (R155). -/
theorem exec_arm_ready {s : State} (hr : s.ready) (ha : s.armed = false) :
    exec .arm s = .next (if s.built && s.initd then { s with armed := true } else s.raise .armBeforeInit 0) := by
  simp [exec, execArm, State.accept_ready hr, ha]

/-- Settles O28: ARM needs both flags, and its fault is the first. -/
theorem armNeedsBuiltAndInitd : Obligations.ArmNeedsBuiltAndInitd := by
  refine fun s hr ha => ⟨fun hb hi => ?_, fun hno => ?_⟩
  · rw [exec_arm_ready hr ha, if_pos (by simp [hb, hi])]
  · rw [exec_arm_ready hr ha, if_neg (by rcases hno with h | h <;> simp [h]), raise_eq_faultRecorded hr.2]
    rfl

end Sys2Proof.Machine
end

section
/-! PROOFS. What one step runs: the decoded micro-op, the command on the port, the held command, or nothing (R17, R109, R148). -/

namespace Sys2Proof.Machine

/-! ### The micro-op at SEQ_PC -/

/-- A running sequencer executes the micro-op that its slot decodes to (R109). -/
theorem seqStep_decoded {s : State} (hr : s.running) {i : Instr} (hd : decodeMicroOp s.fetch = .ok i) :
    seqStep s = exec i s := by
  simp [seqStep, hr.1, hr.2, hd]

/-- No held command goes first where none is held or the sequencer runs (R148). -/
theorem no_held_first {s : State} (hp : s.held = [] ∨ s.running) : (s.portOpen && !s.held.isEmpty) = false := by
  rcases hp with hh | ⟨hb, hf⟩
  · simp [hh]
  · simp [State.portOpen, hb, hf]

/-- A sequencer step without a held command that could go first, with nothing from outside (R17). -/
theorem step_seqStep {s : State} {rest : List Input} (h : s.inputs = .seqStep :: rest) (hp : s.held = [] ∨ s.running) :
    step s = seqStep { s with inputs := rest } := by
  rw [step_cons h rfl, no_held_first hp]
  rfl

/-- A step with an empty schedule and no held command that could go first. -/
theorem step_nil_seqStep {s : State} (h : s.inputs = []) (hp : s.held = [] ∨ s.running) : step s = seqStep s := by
  rw [step_nil h, no_held_first hp]
  rfl

/-- While the sequencer has no step a RUN at the front is over, and takes no step of its own (R88). -/
theorem step_run_stopped {s : State} {rest : List Input} (hs : s.busy = false ∨ s.faulted = true)
    (h : s.inputs = .run :: rest) : step s = step { s with inputs := rest } := by
  have hstop : (s.busy && !s.faulted) = false := by rcases hs with hb | hf <;> simp [*]
  have hskip : s.skipRun = ({ s with inputs := rest } : State).skipRun := by
    simp [State.skipRun, hstop, h, List.dropWhile_cons, Input.isRun]
  rw [step, step, machineStep, machineStep, hskip]

/-! ### The command on the port -/

/-- The port hands a code to the instruction that it decodes to (R84). -/
theorem hostCommand_decoded {c : Cmd} {i : Instr} (h : decodeCommand c = .ok i) (s : State) : hostCommand c s = exec i s := by
  simp [hostCommand, h]

/-- An open port takes a command in the step that presents it, when no older one is held (R148). -/
theorem step_command_open {s : State} {c : Cmd} {rest : List Input} (h : s.inputs = .command c :: rest)
    (hp : s.portOpen = true) (hh : s.held = []) : step s = hostCommand c { s with inputs := rest } := by
  rw [step_cons h rfl, if_neg (by simp [hh])]
  exact if_pos (Bool.and_eq_true_iff.2 ⟨hp, by simp [hh]⟩)

/-- RUN has no place in the order (R148; log entry 16). -/
theorem Input.isRun_of_not_comesFirst {e : Input} (h : e.comesFirst = false) : e.isRun = false := by
  cases e with
  | run => cases h
  | _ => rfl

/-- A held command acts in the first step with BUSY = 0, before any entry but PWR_RESET, a cycle and RUN (R148). -/
theorem step_held {s : State} (hr : s.ready) {c : Cmd} {cs : List Cmd} (hh : s.held = c :: cs)
    (hfront : ∀ e rest, s.inputs = e :: rest → e.comesFirst = false) : step s = hostCommand c { s with held := cs } := by
  have htake : takeHeld s = hostCommand c { s with held := cs } := by simp only [takeHeld, hh]
  rw [← htake]
  cases hi : s.inputs with
  | nil =>
    rw [step_nil hi]
    simp [State.portOpen, hr.1, hh]
  | cons e rest =>
    have hlate := hfront e rest hi
    rw [step_cons hi (Input.isRun_of_not_comesFirst hlate)]
    simp [State.portOpen, hr.1, hh, hlate]

/-- Settles O31: a command does nothing on a busy block, a busy port keeps a presented one, and an idle one takes the oldest. -/
theorem commandHeldWhileBusy : Obligations.CommandHeldWhileBusy := by
  refine ⟨fun i s hi hb => exec_command_of_not_ready hi (by simp [hb]), fun s c rest hr h => ?_,
    fun s c cs hr hh hfront => ?_⟩
  · have hstep := step_command_running hr c rest
    rw [← h] at hstep
    exact hstep
  · rw [step_held hr hh hfront]
    exact ⟨fun i hi => hostCommand_decoded hi _, fun hc => hostCommand_reserved (s := { s with held := cs }) hr hc⟩

/-- Settles O39, by what stands at the front of the schedule. -/
theorem stepRunsDecodedInstruction : Obligations.StepRunsDecodedInstruction := by
  refine ⟨fun s i rest hr hd => ⟨fun h => ?_, fun h => ?_, fun h => ?_⟩, fun s i c rest hr hh h hd => ?_,
    fun s rest hr hh => ⟨fun h => ?_, fun h => ?_⟩, fun s rest hs h => step_run_stopped hs h⟩
  · rw [step_nil_seqStep h (.inr hr), seqStep_decoded hr hd]
  · rw [step_run h hr.1 hr.2, seqStep_decoded hr hd]
  · rw [step_seqStep h (.inr hr), seqStep_decoded (s := { s with inputs := rest }) hr hd]
  · rw [step_command_open h (by simp [State.portOpen, hr.1]) hh, hostCommand_decoded hd]
  · rw [step_nil_seqStep h (.inl hh), seqStep_stopped (.inl hr.1)]
  · rw [step_seqStep h (.inl hh), seqStep_stopped (s := { s with inputs := rest }) (.inl hr.1)]

/-! ### A placed word -/

/-- A word of the opcode table below 8 is a command code (log entry 10). -/
theorem tableCodeWord_command (c : Cmd) : tableCodeWord c.toNat = some (.command c) := by
  rw [tableCodeWord, if_pos c.isLt, BitVec.ofNat_toNat, BitVec.setWidth_eq]

/-- Any other byte is a micro-op word (log entry 10). -/
theorem tableCodeWord_microOp {m : Byte} (h : 8 ≤ m.toNat) : tableCodeWord m.toNat = some (.microOp m) := by
  rw [tableCodeWord, if_neg h.not_gt, if_pos m.isLt, BitVec.ofNat_toNat, BitVec.setWidth_eq]

/-- The code word of an instruction, read as a word of the opcode table, is that code word: a legal micro-op word is at least
0x10 (R77). -/
theorem tableCodeWord_encode (i : Instr) : tableCodeWord (encode i).toNat = some (encode i) := by
  have hdec := decode_encode i
  cases hw : encode i with
  | command c => exact tableCodeWord_command c
  | microOp m =>
    rw [hw] at hdec
    refine tableCodeWord_microOp (Nat.le_of_not_lt fun hlt => ?_)
    obtain ⟨e, he⟩ := (decodeMicroOp_error_iff m).2 (.inl (.inl (by omega)))
    rw [decode, he] at hdec
    cases hdec

/-- A placed micro-op word is the one the sequencer fetches next. -/
theorem fetch_placeCodeWord (s : State) (m : Byte) : (s.placeCodeWord (.microOp m)).fetch = m := by
  simp [State.fetch, State.placeCodeWord]

/-- Settles O40: the placed word is what the sequencer fetches, or what an open port is handed, and it decodes to the
instruction. -/
theorem placedWordRunsNext : Obligations.PlacedWordRunsNext := by
  intro s n i
  have hplaced : s.withFetchWord n (encode i).toNat = s.placeCodeWord (encode i) := by
    rw [State.withFetchWord, tableCodeWord_encode]
  have hdec := decode_encode i
  rw [hplaced]
  refine ⟨fun m hm => ?_, fun c hc => ?_⟩
  · rw [hm] at hdec ⊢
    rw [decode, ← fetch_placeCodeWord s m] at hdec
    exact (step_seqStep rfl (.inr ⟨rfl, rfl⟩)).trans
      (seqStep_decoded (s := { s.placeCodeWord (.microOp m) with inputs := s.inputs }) ⟨rfl, rfl⟩ hdec)
  · rw [hc] at hdec ⊢
    rw [step_command_open rfl rfl rfl, hostCommand_decoded hdec]
    rfl

end Sys2Proof.Machine
end

section
/-! PROOFS. One cycle in its order (spec/70_reset_and_hazards.md R209): the command on the port, the TICK, the micro-op. -/

namespace Sys2Proof.Machine

/-! ### The parts of a cycle -/

/-- Without a TICK, or before ARM, nothing is sampled (R128, R182). -/
theorem sampleTick_none {tick : Bool} {start : State} (h : start.armed = false ∨ tick = false) (s : State) :
    sampleTick tick start s = s :=
  if_neg (by rcases h with h | h <;> simp [h])

/-- A TICK in a cycle that starts armed arrives after the command (R182, R209). -/
theorem sampleTick_armed {start : State} (h : start.armed = true) (s : State) : sampleTick true start s = s.tick :=
  if_pos h

/-- The port of an idle block is open (R148). -/
theorem State.portOpen_idle {s : State} (hb : s.busy = false) : s.portOpen = true := by simp [State.portOpen, hb]

/-- A cycle that starts idle with nothing on the port: the TICK, then the micro-op (R209). -/
theorem runCycle_quiet {s : State} (hb : s.busy = false) {tick : Bool} {cmd : Option Cmd} (hport : s.held ++ cmd.toList = []) :
    runCycle tick cmd s = seqStep (sampleTick tick s s) := by
  have hh : s.held = [] := (List.append_eq_nil_iff.1 hport).1
  have htake : takeHeld s = .next s := by simp only [takeHeld, hh]
  simp only [runCycle]
  rw [if_pos (State.portOpen_idle hb), hport, ← hh]
  exact congrArg (andThen · fun t => seqStep (sampleTick tick s t)) htake

/-- A cycle that starts idle takes the oldest command on the port, then the TICK, then the micro-op (R209). -/
theorem runCycle_command {s : State} (hb : s.busy = false) {tick : Bool} {cmd : Option Cmd} {c : Cmd} {cs : List Cmd}
    (hport : s.held ++ cmd.toList = c :: cs) :
    runCycle tick cmd s = andThen (hostCommand c { s with held := cs }) fun t => seqStep (sampleTick tick s t) := by
  simp only [runCycle]
  rw [if_pos (State.portOpen_idle hb), hport]
  rfl

/-- A cycle that starts busy holds its command: the TICK, then the micro-op (R148, R209). -/
theorem runCycle_running {s : State} (hr : s.running) (tick : Bool) (cmd : Option Cmd) :
    runCycle tick cmd s = seqStep (sampleTick tick s { s with held := s.held ++ cmd.toList }) := by
  simp only [runCycle]
  rw [if_neg (by simp [State.portOpen, hr.1, hr.2]), andThen_next]

/-- A command that faults halts the block for the rest of its cycle (R129, R182). -/
theorem seqStep_sampleTick_faulted {s : State} (hf : s.faulted = true) (tick : Bool) (start : State) :
    seqStep (sampleTick tick start s) = .next s := by
  have htick : sampleTick tick start s = s := by
    unfold sampleTick
    rw [tick_ignored (.inl hf), ite_self]
  rw [htick, seqStep_stopped (.inr hf)]

/-- A fault does not touch BUSY (R178). -/
@[simp] theorem State.raise_busy (s : State) (code : FaultCode) (info : BitVec 6) : (s.raise code info).busy = s.busy := by
  rw [State.raise_eq]; split <;> rfl

/-- BUILD's computation does not touch BUSY (R101). -/
@[simp] theorem State.buildTable_busy (s : State) : s.buildTable.busy = s.busy := by
  rcases s.buildTable_cases with ⟨code, info, -, e⟩ | ⟨-, e⟩ <;> rw [e]
  · exact s.raise_busy code info
  · rfl

/-- BUILD and ARM start no sequence (R101, R155). -/
theorem exec_keeps_idle {s : State} (hr : s.ready) {i : Instr} (hi : i = .build ∨ i = .arm) :
    Yields (exec i s) (·.busy = false) := by
  rcases hi with rfl | rfl <;> refine (yields_next _ _).2 ?_ <;> rw [State.accept_ready hr] <;> split_ifs <;> simp [hr.1]

/-- The codes from 1 to 3 are the commands that ARM ends (R84, R156). -/
theorem decodeCommand_prepares {c : Cmd} (h1 : 1 ≤ c.toNat) (h3 : c.toNat ≤ 3) :
    ∃ i, decodeCommand c = .ok i ∧ (i = .build ∨ i = .ddsInit ∨ i = .arm) := by
  have hcases : c = 1 ∨ c = 2 ∨ c = 3 := by bv_omega
  rcases hcases with rfl | rfl | rfl
  · exact ⟨.build, rfl, .inl rfl⟩
  · exact ⟨.ddsInit, rfl, .inr (.inl rfl)⟩
  · exact ⟨.arm, rfl, .inr (.inr rfl)⟩

/-! ### A cycle that starts idle -/

/-- Once the command is done with, what is left of a cycle that is still idle is its TICK (R182). -/
theorem seqStep_sampleTick_ready {s start : State} (hr : s.ready) (ha : s.armed = start.armed) (tick : Bool) :
    (start.armed = true → tick = true → seqStep (sampleTick tick start s) = seqStep s.tickTaken)
      ∧ (start.armed = false ∨ tick = false → seqStep (sampleTick tick start s) = .next s) := by
  refine ⟨fun hs ht => ?_, fun hno => ?_⟩
  · rw [ht, sampleTick_armed hs, tick_accepted hr (ha.trans hs)]
  · rw [sampleTick_none hno, seqStep_stopped (.inl hr.1)]

section
variable {s : State} {tick : Bool} {cmd : Option Cmd} {c : Cmd} {cs : List Cmd} (hr : s.ready)
  (hport : s.held ++ cmd.toList = c :: cs)
include hr hport

/-- A reserved code faults in its cycle, and its TICK finds the block halted (R157, R182). -/
theorem runCycle_reserved (hc : 4 ≤ c.toNat) :
    runCycle tick cmd s
      = .next ({ s with held := cs }.faultRecorded 8 .illegalCommand (BitVec.ofNat 6 c.toNat)) := by
  rw [runCycle_command hr.1 hport, hostCommand_reserved (s := { s with held := cs }) hr hc, andThen_next,
    seqStep_sampleTick_faulted rfl]

/-- After ARM the commands that prepare the block fault in their cycle, and its TICK finds the block halted (R156, R182). -/
theorem runCycle_afterArm (ha : s.armed = true) (h1 : 1 ≤ c.toNat) (h3 : c.toNat ≤ 3) :
    runCycle tick cmd s = .next ({ s with held := cs }.faultRecorded 7 .cmdAfterArm 0) := by
  obtain ⟨i, hdec, hi⟩ := decodeCommand_prepares h1 h3
  rw [runCycle_command hr.1 hport, hostCommand_decoded hdec, exec_armed_faults (s := { s with held := cs }) hr ha hi,
    andThen_next, seqStep_sampleTick_faulted rfl]

/-- Beside a NOP the TICK is as without a command (R150, R182). -/
theorem runCycle_nop (hc : c = 0) : runCycle tick cmd s = seqStep (sampleTick tick s { s with held := cs }) := by
  subst hc
  rw [runCycle_command hr.1 hport, hostCommand_decoded (i := .nop) rfl, exec_nop, andThen_next]

/-- In a cycle that starts before ARM the TICK is ignored, whatever the command does (R128, R182). -/
theorem runCycle_beforeArm (ha : s.armed = false) :
    runCycle tick cmd s = andThen (hostCommand c { s with held := cs }) seqStep := by
  rw [runCycle_command hr.1 hport]
  simp only [sampleTick_none (.inl ha)]

end

/-- A command that leaves the block idle takes the cycle (R182). -/
theorem andThen_seqStep_idle {o : Result} (h : Yields o (·.busy = false)) : andThen o seqStep = o := by
  obtain ⟨t, rfl, hb⟩ := h
  rw [andThen_next, seqStep_stopped (.inl hb)]

/-- Settles O42, by the command that the port presents to the cycle. -/
theorem idleCycleOrder : Obligations.IdleCycleOrder := by
  intro s tick cmd rest hr hin
  have hstep : step s = runCycle tick cmd { s with inputs := rest } := by rw [step_cycle hin]; rfl
  have hstart : ({ s with inputs := rest } : State).ready := hr
  rw [hstep]
  refine ⟨fun hport => ?_, fun c cs u hport hu => ?_⟩
  · rw [runCycle_quiet hstart.1 hport]
    exact seqStep_sampleTick_ready hstart rfl tick
  · have hru : u.ready := hu ▸ hr
    refine ⟨fun hc => ?nop, fun hc => ?reserved, fun ha h1 h3 => ?afterArm,
      fun ha => ⟨fun hc => ?build, fun hc => ?init, fun hc => ?arm⟩⟩
    case nop =>
      rw [runCycle_nop hstart hport hc, ← hu]
      exact seqStep_sampleTick_ready hru (hu ▸ rfl) tick
    case reserved => rw [runCycle_reserved hstart hport hc, ← hu]
    case afterArm => rw [runCycle_afterArm hstart hport ha h1 h3, ← hu]
    case build =>
      rw [runCycle_beforeArm hstart hport ha, ← hu, hc, hostCommand_decoded (i := .build) rfl,
        andThen_seqStep_idle (exec_keeps_idle hru (.inl rfl))]
    case init =>
      rw [runCycle_beforeArm hstart hport ha, ← hu, hc, hostCommand_decoded (i := .ddsInit) rfl,
        exec_ddsInit_starts hru (hu ▸ ha)]
      rfl
    case arm =>
      rw [runCycle_beforeArm hstart hport ha, ← hu, hc, hostCommand_decoded (i := .arm) rfl,
        andThen_seqStep_idle (exec_keeps_idle hru (.inr rfl))]

/-! ### A cycle that starts busy -/

/-- Settles O43: the command goes to the port, and the TICK is an overrun of the block that the micro-op then runs in. -/
theorem busyCycleOrder : Obligations.BusyCycleOrder := by
  intro s cmd rest hr
  have hstep {tick : Bool} (hin : s.inputs = .cycle false tick cmd :: rest) :
      step s = seqStep (sampleTick tick { s with inputs := rest }
        { s with inputs := rest, held := s.held ++ cmd.toList }) := by
    rw [step_cycle hin]
    exact runCycle_running (s := { s with inputs := rest }) hr tick cmd
  have hover (ha : s.armed = true) (hin : s.inputs = .cycle false true cmd :: rest) :
      step s = seqStep { s with inputs := rest, held := s.held ++ cmd.toList }.overrunTick :=
    (hstep hin).trans (congrArg seqStep ((sampleTick_armed ha _).trans (tick_overrun hr ha)))
  refine ⟨fun tick hno hin => ?none, fun ha ho hp hin => ?held, fun ha ho hp hin => ?full, fun ha ho hin => ?either,
    fun ha ho hin => ?drop⟩
  case none => exact (hstep hin).trans (congrArg seqStep (sampleTick_none hno.symm _))
  case held => exact (hover ha hin).trans (congrArg seqStep (overrunTick_delay_free ho hp))
  case full => exact (hover ha hin).trans (congrArg seqStep (overrunTick_delay_full ho hp))
  case drop => exact (hover ha hin).trans (congrArg seqStep (overrunTick_drop ho))
  case either =>
    rcases overrunTick_either (s := { s with inputs := rest, held := s.held ++ cmd.toList }) ho with ⟨hp, e⟩ | e
    · exact .inl ⟨hp, (hover ha hin).trans (congrArg seqStep e)⟩
    · exact .inr ((hover ha hin).trans (congrArg seqStep e))

end Sys2Proof.Machine
end

section
/-! PROOFS. One step taken apart: what comes before the sequencer, and the one micro-op at its end. By it a bus is written only
while W_CLK = 0 (spec/44_dds_interface.md R161). -/

namespace Sys2Proof.Machine

/-! ### The parts of a step -/

/-- What a step can do to `s` before its micro-op: the schedule and the port move, ticks arrive, commands act. -/
inductive BeforeSequencer (s : State) : State → Prop
  | start : BeforeSequencer s s
  | inputs {u : State} (h : BeforeSequencer s u) (l : List Input) : BeforeSequencer s { u with inputs := l }
  | held {u : State} (h : BeforeSequencer s u) (cs : List Cmd) : BeforeSequencer s { u with held := cs }
  | tick {u t : State} (h : BeforeSequencer s u) (ho : TickOutcome u t) : BeforeSequencer s t
  | command {u t : State} (h : BeforeSequencer s u) (ho : CommandOutcome u t) : BeforeSequencer s t

/-- What a step can lead to: PWR_RESET or a micro-op comes last, and at most once (R192, R209). -/
inductive StepOutcome (s : State) : State → Prop
  | reset {u : State} (h : BeforeSequencer s u) : StepOutcome s u.pwrReset
  | noMicroOp {u : State} (h : BeforeSequencer s u) : StepOutcome s u
  | sequencer {u t : State} (h : BeforeSequencer s u) (ho : SequencerOutcome u t) : StepOutcome s t

/-- A code on the port acts as its command, or as a reserved code (R84). -/
theorem hostCommand_outcome (c : Cmd) (s : State) : Yields (hostCommand c s) (CommandOutcome s) := by
  unfold hostCommand
  split
  · next i hi => exact exec_command_outcome (decodeCommand_not_microOp hi) s
  · exact (yields_next _ _).2 (reservedCommand_outcome s c)

theorem Yields.imp {o : Result} {P Q : State → Prop} (h : Yields o P) (hpq : ∀ t, P t → Q t) : Yields o Q :=
  let ⟨t, e, hp⟩ := h
  ⟨t, e, hpq t hp⟩

namespace BeforeSequencer

variable {s u : State} (h : BeforeSequencer s u)
include h

theorem hostCommand (c : Cmd) : Yields (hostCommand c u) (BeforeSequencer s) :=
  (hostCommand_outcome c u).imp fun _ ho => h.command ho

theorem takeHeld : Yields (takeHeld u) (BeforeSequencer s) := by
  unfold Sys2Proof.Machine.takeHeld
  split
  · exact (yields_next _ _).2 h
  · exact (h.held _).hostCommand _

theorem seqStep : Yields (seqStep u) (StepOutcome s) := (seqStep_outcome u).imp fun _ ho => .sequencer h ho

theorem sampleTick (tick : Bool) (start : State) : BeforeSequencer s (sampleTick tick start u) := by
  unfold Sys2Proof.Machine.sampleTick
  split
  · exact h.tick (tick_outcome u)
  · exact h

theorem cycleStep (pwr tick : Bool) (cmd : Option Cmd) : Yields (cycleStep pwr tick cmd u) (StepOutcome s) := by
  unfold Sys2Proof.Machine.cycleStep runCycle
  split
  · exact (yields_next _ _).2 (.reset (h.held _))
  · refine Yields.andThen (P := BeforeSequencer s) ?_ fun t ht => (ht.sampleTick tick u).seqStep
    split
    · exact (h.held _).takeHeld
    · exact (yields_next _ _).2 (h.held _)

theorem eventStep (e : Input) (rest : List Input) : Yields (eventStep e rest u) (StepOutcome s) := by
  have hrest := h.inputs rest
  cases e with
  | pwrReset => exact (yields_next _ _).2 (.reset hrest)
  | tick => exact (yields_next _ _).2 (.noMicroOp (hrest.tick (tick_outcome _)))
  | command c =>
    simp only [Sys2Proof.Machine.eventStep, presentCommand]
    split
    · exact (hrest.hostCommand c).imp fun _ => .noMicroOp
    · exact (yields_next _ _).2 (.noMicroOp (hrest.held _))
  | seqStep => exact hrest.seqStep
  | run => exact h.seqStep
  | cycle pwr tick cmd => exact hrest.cycleStep pwr tick cmd

end BeforeSequencer

/-- The only thing a RUN that is over leaves behind is a shorter schedule (R88). -/
theorem skipRun_eq_inputs (s : State) : ∃ l, s.skipRun = { s with inputs := l } := by
  unfold State.skipRun
  split
  · exact ⟨s.inputs, rfl⟩
  · exact ⟨_, rfl⟩

theorem step_outcome (s : State) : Yields (step s) (StepOutcome s) := by
  obtain ⟨l, hl⟩ := skipRun_eq_inputs s
  have h : BeforeSequencer s s.skipRun := hl ▸ BeforeSequencer.start.inputs l
  unfold step machineStep frontStep
  split
  · split
    · exact h.takeHeld.imp fun _ => .noMicroOp
    · exact h.seqStep
  · split
    · exact h.takeHeld.imp fun _ => .noMicroOp
    · exact h.eventStep _ _

/-- What comes before the micro-op keeps the invariant of the block. -/
theorem BeforeSequencer.blockInv {s u : State} (h : BeforeSequencer s u) (hs : BlockInv s) : BlockInv u := by
  induction h with
  | start => exact hs
  | inputs _ l ih => exact keptByEvents_blockInv.inputs _ l ih
  | held _ cs ih => exact keptByEvents_blockInv.held _ cs ih
  | tick _ ho ih => exact ⟨controlInv_tick ih.1 ho, sequenceInv_tick ih.2 ho⟩
  | command _ ho ih => exact ⟨controlInv_command ih.1 ho, sequenceInv_command ih.2 ho⟩

/-! ### Bus events -/

/-- The event is a write of DATA_LO or DATA_HI, also of the old value (R35). -/
def Event.onBus (e : Event) : Prop := (∃ v, e = .line (.dataLo v)) ∨ ∃ v, e = .line (.dataHi v)

/-- From `s` to `t` W_CLK stays, and the events appended to the trace are no writes of a bus. -/
def BusQuiet (s t : State) : Prop := t.wClk = s.wClk ∧ ∃ evs, t.trace = s.trace ++ evs ∧ ∀ e ∈ evs, ¬ e.onBus

theorem BusQuiet.of_same {s t : State} (hw : t.wClk = s.wClk) (ht : t.trace = s.trace) : BusQuiet s t :=
  ⟨hw, [], by simp [ht], by simp⟩

theorem BusQuiet.of_event {s t : State} {e : Event} (hw : t.wClk = s.wClk) (ht : t.trace = s.trace ++ [e])
    (he : ∀ w, e ≠ .line w) : BusQuiet s t := by
  refine ⟨hw, [e], ht, ?_⟩
  simp only [List.mem_singleton, forall_eq]
  rintro (⟨v, hv⟩ | ⟨v, hv⟩) <;> exact he _ hv

theorem BusQuiet.trans {s u t : State} (h : BusQuiet s u) (h' : BusQuiet u t) : BusQuiet s t := by
  obtain ⟨hw, evs, ht, hq⟩ := h
  obtain ⟨hw', evs', ht', hq'⟩ := h'
  refine ⟨hw'.trans hw, evs ++ evs', by rw [ht', ht, List.append_assoc], fun e he => ?_⟩
  exact (List.mem_append.1 he).elim (hq e) (hq' e)

theorem TickOutcome.busQuiet {s t : State} (ho : TickOutcome s t) : BusQuiet s t := by
  cases ho with
  | ignored => exact .of_same rfl rfl
  | accepted => exact .of_event (e := .tickAccepted) rfl rfl nofun
  | delayed => exact .of_event (e := .tickDelayed) rfl rfl nofun
  | lost => exact .of_event (e := .tickDropped) rfl rfl nofun

theorem CommandOutcome.busQuiet {s t : State} (ho : CommandOutcome s t) : BusQuiet s t := by
  cases ho with
  | raised hr code info =>
    rw [raise_eq_faultRecorded hr.2]
    exact .of_event (e := .fault code info) rfl rfl nofun
  | _ => exact .of_same rfl rfl

/-- Before its micro-op a step writes no bus. -/
theorem BeforeSequencer.busQuiet {s u : State} (h : BeforeSequencer s u) : BusQuiet s u := by
  induction h with
  | start => exact .of_same rfl rfl
  | inputs _ l ih => exact ih
  | held _ cs ih => exact ih
  | tick _ ho ih => exact ih.trans ho.busQuiet
  | command _ ho ih => exact ih.trans ho.busQuiet

/-! ### The slots that write a bus -/

/-- The slots of OUT.LO and OUT.HI: two in four from 4 to 21 (R78). -/
def isBusSlot (pc : Nat) : Prop := 4 ≤ pc ∧ pc ≤ 21 ∧ pc % 4 ≤ 1

/-- A slot that writes a bus is one of them: every other slot writes a line of one bit, or none (R78). -/
theorem isBusSlot_of_lineWrite {s : State} {pc : Nat} (hp : pc ≤ 29) {w : LineWrite}
    (hw : lineWriteOf (slotInstr pc) s = some w) (hbus : (Event.line w).onBus) : isBusSlot pc := by
  unfold isBusSlot
  interval_cases pc <;> simp [lineWriteOf] at hw ⊢ <;> simp [← hw, Event.onBus] at hbus

/-- The trace of a slot is its line write, and the start of a pending tick at an END (R35, R122). -/
theorem afterSlot_trace (s : State) :
    (afterSlot s).trace = s.trace ++ ((lineWriteOf (slotInstr s.seqPc.toNat) s).map Event.line).toList
      ++ if endsAt s.seqPc.toNat && s.pending then [.tickAccepted] else [] := by
  rw [← microOpEffect_trace]
  cases he : endsAt s.seqPc.toNat <;> simp [afterSlot, retired, he]

/-- W_CLK is low in a slot that writes a bus, and in the slot after it (R110, R161). -/
theorem wClk_low_of_isBusSlot {s : State} (h : BlockInv s) (hb : s.busy = true) (hslot : isBusSlot s.seqPc.toNat) :
    s.wClk = false ∧ (afterSlot s).wClk = false := by
  obtain ⟨h4, h21, hmod⟩ := hslot
  obtain ⟨-, -, -, hrun, -⟩ := h
  obtain ⟨-, hp, hlines, -⟩ := hrun hb
  obtain ⟨-, -, hnext, -⟩ := linesAt_afterSlot hp hlines
  obtain ⟨-, -, hnow, -⟩ := hlines
  rw [nextSlot_inner (by omega)] at hnext
  rw [hnow, hnext, decide_eq_false_iff_not, decide_eq_false_iff_not]
  omega

/-- A micro-op that appends a bus event finds W_CLK low and leaves it low (R161). -/
theorem sequencer_busEvents {u t : State} (h : BlockInv u) (ho : SequencerOutcome u t) :
    ∃ evs, t.trace = u.trace ++ evs ∧ ∀ e ∈ evs, e.onBus → u.wClk = false ∧ t.wClk = false := by
  have ⟨_, hm, _, hrun, _⟩ := h
  by_cases hr : u.running
  · obtain ⟨-, hp, -⟩ := hrun hr.1
    rw [sequencerOutcome_slot ho hr hm hp]
    refine ⟨_, (afterSlot_trace u).trans (List.append_assoc _ _ _), fun e he hbus => wClk_low_of_isBusSlot h hr.1 ?_⟩
    rcases List.mem_append.1 he with he | he
    · simp only [Option.mem_toList, Option.map_eq_some_iff] at he
      obtain ⟨w, hw, rfl⟩ := he
      exact isBusSlot_of_lineWrite hp hw hbus
    · split at he
      · rw [List.mem_singleton.1 he] at hbus
        simp [Event.onBus] at hbus
      · simp at he
  · cases ho with
    | stopped => exact ⟨[], by simp, by simp⟩
    | illegal hr' => exact absurd hr' hr
    | microOp hr' => exact absurd hr' hr

/-- A micro-op that changes a bus finds W_CLK low and leaves it low (R161). -/
theorem sequencer_busChange {u t : State} (h : BlockInv u) (ho : SequencerOutcome u t)
    (hchange : t.dataLo ≠ u.dataLo ∨ t.dataHi ≠ u.dataHi) : u.wClk = false ∧ t.wClk = false := by
  have ⟨_, hm, _, hrun, _⟩ := h
  by_cases hr : u.running
  · obtain ⟨-, hp, -⟩ := hrun hr.1
    rw [sequencerOutcome_slot ho hr hm hp] at hchange ⊢
    refine wClk_low_of_isBusSlot h hr.1 ?_
    by_contra hslot
    unfold isBusSlot at hslot
    rw [(afterSlot_buses u).1, (afterSlot_buses u).2, dataLo_slot u hp, dataHi_slot u hp, if_neg (by omega),
      if_neg (by omega)] at hchange
    simp at hchange
  · cases ho with
    | stopped => simp at hchange
    | illegal hr' => exact absurd hr' hr
    | microOp hr' => exact absurd hr' hr

/-- Settles O56: only the micro-op of a step writes a bus, and it does so in the slots of OUT.LO and OUT.HI. -/
theorem busWrittenOnlyWhileClockLow : Obligations.BusWrittenOnlyWhileClockLow := by
  refine fun s t h => ⟨fun evs hstep ht hbus => ?_, fun hseq => sequencer_busChange h ((seqStep_outcome s).of_eq hseq)⟩
  obtain ⟨e, he, hon⟩ : ∃ e ∈ evs, e.onBus := by
    rcases hbus with ⟨v, hv⟩ | ⟨v, hv⟩
    · exact ⟨_, hv, .inl ⟨v, rfl⟩⟩
    · exact ⟨_, hv, .inr ⟨v, rfl⟩⟩
  cases (step_outcome s).of_eq hstep with
  | reset =>
    have hnone : evs = [] := (List.append_eq_nil_iff.1 (ht.symm.trans (by simp))).2
    simp [hnone] at he
  | noMicroOp hu =>
    obtain ⟨-, evs', ht', hq⟩ := hu.busQuiet
    rw [List.append_cancel_left (ht.symm.trans ht')] at he
    exact absurd hon (hq e he)
  | sequencer hu ho =>
    obtain ⟨hw, before, hbefore, hq⟩ := hu.busQuiet
    obtain ⟨own, hown, hlow⟩ := sequencer_busEvents (hu.blockInv h) ho
    rw [← hw]
    rw [hown, hbefore, List.append_assoc] at ht
    rw [← List.append_cancel_left ht] at he
    exact (List.mem_append.1 he).elim (fun hb => absurd hon (hq e hb)) fun hs => hlow e hs hon

end Sys2Proof.Machine
end

section
/-! PROOFS. The table walk (spec/42_tick_sequence.md R139 to R141): serviced ticks, one after the other. -/

namespace Sys2Proof.Machine

/-- A property that every event keeps, a run keeps. -/
theorem KeptByEvents.runSteps {P : State → Prop} (k : KeptByEvents P) {n : Nat} {s t : State} (h : P s)
    (hrun : runSteps n s = .next t) : P t := by
  induction n generalizing s with
  | zero => cases hrun; exact h
  | succ n ih =>
    obtain ⟨u, hu, hp⟩ := k.step s h
    rw [runSteps_step hu] at hrun
    exact ih hp hrun

/-- A ready block has its lines low and no tick pending (R28, R41). -/
theorem ready_lines {s : State} (h : BlockInv s) (hr : s.ready) :
    s.fqUd = false ∧ s.wClk = false ∧ s.pending = false := by
  obtain ⟨⟨-, ⟨-, hpend, -⟩, -⟩, -, hidle, -⟩ := h
  have hlines := hidle hr.1
  exact ⟨by simpa using hlines.2.1, by simpa using hlines.2.2.1,
    Bool.eq_false_iff.2 fun hp => absurd (hpend hp).1 (by simp [hr.1])⟩

/-- The 24 line writes of a tick (R136). -/
theorem length_tickEvents (w : Word) : (tickEvents w).length = 24 := rfl

/-- One TICK on an armed idle block, with the RUN after it (R136, R139). -/
theorem runSteps_tick_run {s : State} (h : BlockInv s) (hr : s.ready) (ha : s.armed = true) (hh : s.held = [])
    {w : Word} (hw : s.rom.read s.cursor.toNat = some w) {rest : List Input} (hin : s.inputs = .tick :: .run :: rest) :
    runSteps 27 s = .next ({ s with inputs := .run :: rest }.tickTaken.tickServiced w) := by
  obtain ⟨hfq, hclk, -⟩ := ready_lines h hr
  have ⟨_, hm, _⟩ := h
  have htick : step s = .next { s with inputs := .run :: rest }.tickTaken := by
    rw [step_tick hin (.inl hh), tick_accepted (s := { s with inputs := .run :: rest }) hr ha]
  rw [runSteps_step htick]
  exact runSteps_tick ⟨hm, ⟨rfl, hr.2⟩, .inr ⟨rest, rfl⟩⟩ rfl hfq hclk hw

/-- The state that `n` serviced ticks of the walk leave of `s` (R139 to R141). -/
def Walked (n : Nat) (s t : State) : Prop :=
  t.cursor.toNat = (s.cursor.toNat + n) % 64
    ∧ (0 < n → t.word = s.rom.read ((s.cursor.toNat + n - 1) % 64))
    ∧ (n = 0 → t.word = s.word)
    ∧ t.serviced = s.serviced + n ∧ t.overruns = s.overruns ∧ t.dropped = s.dropped
    ∧ t.trace.length = s.trace.length + 25 * n
    ∧ t.rom = s.rom ∧ t.ready ∧ t.armed = true ∧ t.inputs = []

/-- No tick leaves the block as it is. -/
theorem walked_zero {s : State} (hr : s.ready) (ha : s.armed = true) (hin : s.inputs = []) : Walked 0 s s :=
  ⟨(Nat.mod_eq_of_lt s.cursor.isLt).symm, (absurd · (Nat.lt_irrefl 0)), fun _ => rfl, rfl, rfl, rfl, rfl, rfl, hr, ha, hin⟩

/-- A serviced tick before a walk of `n` is a walk of `n + 1`: the tick stages the entry at CURSOR (R139). -/
theorem Walked.after_tick {n : Nat} {s v t : State} (h : Walked n v t) (hcur : v.cursor = s.cursor + 1)
    (hword : v.word = s.rom.read s.cursor.toNat) (hserv : v.serviced = s.serviced + 1) (hover : v.overruns = s.overruns)
    (hdrop : v.dropped = s.dropped) (htrace : v.trace.length = s.trace.length + 25) (hrom : v.rom = s.rom) :
    Walked (n + 1) s t := by
  obtain ⟨hc, hw, hw0, hs, ho, hd, ht, hr, hrest⟩ := h
  have hlt := s.cursor.isLt
  have hnext : v.cursor.toNat = (s.cursor.toNat + 1) % 64 := by rw [hcur, BitVec.toNat_add]; rfl
  refine ⟨by omega, fun _ => ?_, nofun, by omega, by omega, by omega, by omega, hr.trans hrom, hrest⟩
  rcases Nat.eq_zero_or_pos n with rfl | hpos
  · have hentry : (s.cursor.toNat + (0 + 1) - 1) % 64 = s.cursor.toNat := by omega
    rw [hw0 rfl, hword, hentry]
  · have hentry : (v.cursor.toNat + n - 1) % 64 = (s.cursor.toNat + (n + 1) - 1) % 64 := by omega
    rw [hw hpos, hrom, hentry]

/-- `n` times a TICK and a RUN walk the table; the RUN of a tick is over when the next TICK comes (R88, R139 to R141). -/
theorem runSteps_walk {n : Nat} {s : State} (h : BlockInv s) (hr : s.ready) (ha : s.armed = true) (hh : s.held = [])
    (hin : s.inputs = tickThenRun n) : Yields (runSteps (27 * n + 1) s) (Walked n s) := by
  induction n generalizing s with
  | zero =>
    have hstep : step s = .next s := by rw [step_nil_seqStep hin (.inl hh), seqStep_stopped (.inl hr.1)]
    rw [runSteps_step hstep]
    exact (yields_next _ _).2 (walked_zero hr ha hin)
  | succ n ih =>
    obtain ⟨w, hw⟩ := Option.isSome_iff_exists.1 (armed_entry_isSome h.1 ha s.cursor.isLt)
    obtain ⟨-, -, hp⟩ := ready_lines h hr
    have hrun := runSteps_tick_run h hr ha hh hw hin
    obtain ⟨u, hu⟩ : ∃ u, u = ({ s with inputs := .run :: tickThenRun n } : State).tickTaken.tickServiced w := ⟨_, rfl⟩
    rw [← hu] at hrun
    have hinv : BlockInv u := keptByEvents_blockInv.runSteps h hrun
    have hidle : u.busy = false := by simp [hu, State.tickServiced, State.tickTaken, hp]
    have htrace : u.trace.length = s.trace.length + 25 := by
      simp [hu, State.tickServiced, State.tickTaken, length_tickEvents, hp]
    have hover : step u = step { u with inputs := tickThenRun n } := step_run_stopped (.inl hidle) (by rw [hu]; rfl)
    have hsteps : 27 * (n + 1) + 1 = 27 + (27 * n + 1) := by omega
    rw [hsteps, runSteps_add _ hrun, runSteps_succ, hover, ← runSteps_succ]
    have hwalk := ih (s := { u with inputs := tickThenRun n }) hinv ⟨hidle, by rw [hu]; exact hr.2⟩ (by rw [hu]; exact ha)
      (by rw [hu]; exact hh) rfl
    refine hwalk.imp fun t ht => ht.after_tick ?_ ?_ ?_ ?_ ?_ htrace ?_ <;> rw [hu]
    · rfl
    · exact hw.symm
    all_goals rfl

/-- Settles O48, by the walk; 64 ticks are one turn of CURSOR. -/
theorem servicedTicksWalkTable : Obligations.ServicedTicksWalkTable := by
  intro n s h hr ha hh hin
  obtain ⟨t, e, hcur, hword, -, hrest⟩ := runSteps_walk h hr ha hh hin
  have hlt := s.cursor.isLt
  exact ⟨t, e, hcur, fun h64 => BitVec.eq_of_toNat_eq (by omega), hword, hrest⟩

end Sys2Proof.Machine
end

section
/-! PROOFS. Ticks on a period of at least 26 cycles give no overrun (spec/70_reset_and_hazards.md R200, R208): in every cycle the
countdown to the next TICK is no shorter than what is left of the running tick sequence. -/

namespace Sys2Proof.Machine

/-! ### Frames -/

/-- The ghost counts of overruns and of lost ticks stay. -/
def SameCounts (s t : State) : Prop := t.overruns = s.overruns ∧ t.dropped = s.dropped

theorem SameCounts.trans {s u t : State} (h : SameCounts s u) (h' : SameCounts u t) : SameCounts s t :=
  ⟨h'.1.trans h.1, h'.2.trans h.2⟩

/-- The counts stay, and so do FAULTED, the port and the schedule: what an event leaves that is no command and no overrun. -/
def Untroubled (s t : State) : Prop :=
  SameCounts s t ∧ t.faulted = s.faulted ∧ t.held = s.held ∧ t.inputs = s.inputs

theorem Untroubled.refl (s : State) : Untroubled s s := ⟨⟨rfl, rfl⟩, rfl, rfl, rfl⟩

theorem Untroubled.trans {s u t : State} (h : Untroubled s u) (h' : Untroubled u t) : Untroubled s t := by
  obtain ⟨hc, hf, hh, hi⟩ := h
  obtain ⟨hc', hf', hh', hi'⟩ := h'
  exact ⟨hc.trans hc', hf'.trans hf, hh'.trans hh, hi'.trans hi⟩

theorem afterSlot_untroubled (s : State) : Untroubled s (afterSlot s) := by
  cases he : endsAt s.seqPc.toNat <;> simp [Untroubled, SameCounts, afterSlot, retired, he]

/-- A command is no tick, and the schedule is not its own. -/
theorem CommandOutcome.sameCounts {s t : State} (ho : CommandOutcome s t) : SameCounts s t ∧ t.inputs = s.inputs := by
  cases ho with
  | raised hr code info => rw [raise_eq_faultRecorded hr.2]; exact ⟨⟨rfl, rfl⟩, rfl⟩
  | _ => exact ⟨⟨rfl, rfl⟩, rfl⟩

/-- Nor is a step of the sequencer, over any micro-program. -/
theorem SequencerOutcome.sameCounts {s t : State} (ho : SequencerOutcome s t) : SameCounts s t ∧ t.inputs = s.inputs := by
  cases ho with
  | stopped => exact ⟨⟨rfl, rfl⟩, rfl⟩
  | illegal hr => rw [raise_eq_faultRecorded hr.2]; exact ⟨⟨rfl, rfl⟩, rfl⟩
  | microOp _ i last => cases last <;> simp [SameCounts, retired]

/-! ### A tick sequence that ends in time -/

/-- No tick is pending, and a tick sequence that runs is over in at most `k` cycles. -/
def TickFits (k : Nat) (s : State) : Prop :=
  BlockInv s ∧ s.pending = false ∧ (s.busy = true → s.armed = true → 26 ≤ k + s.seqPc.toNat)

/-- Only a tick sequence has an end to wait for. -/
theorem TickFits.of_no_tick {k : Nat} {s : State} (h : BlockInv s) (hno : s.busy = true → s.armed = false) : TickFits k s := by
  have ⟨⟨_, ⟨_, hpend, _⟩, _⟩, _⟩ := h
  refine ⟨h, Bool.eq_false_iff.2 fun hp => ?_, fun hb ha => ?_⟩
  · obtain ⟨hb, ha⟩ := hpend hp
    simp [hno hb] at ha
  · simp [hno hb] at ha

/-- The sequencer is one cycle nearer to its END, and no pending tick starts there (R81, R122). -/
theorem TickFits.seqStep {k : Nat} {s : State} (h : TickFits (k + 1) s) :
    Yields (seqStep s) fun t => TickFits k t ∧ Untroubled s t := by
  obtain ⟨hinv, hp, hfit⟩ := h
  have ⟨_, hm, _, hrun, _⟩ := hinv
  obtain ⟨t, e, ho⟩ := seqStep_outcome s
  refine ⟨t, e, ?_⟩
  cases hb : s.busy with
  | false =>
    rw [seqStep_stopped (.inl hb)] at e
    cases e
    exact ⟨.of_no_tick hinv (by simp [hb]), .refl s⟩
  | true =>
    obtain ⟨hf, hpc, -⟩ := hrun hb
    have hinv' := blockInv_sequencer hinv ho
    have ht := sequencerOutcome_slot ho ⟨hb, hf⟩ hm hpc
    subst ht
    refine ⟨⟨hinv', ?_, fun hb' ha => ?_⟩, afterSlot_untroubled s⟩
    · cases he : endsAt s.seqPc.toNat <;> simp [afterSlot, retired, he, hp]
    · have he : ¬ (s.seqPc.toNat = 25 ∨ s.seqPc.toNat = 29) := fun he => by
        simp [afterSlot_busy, hp, (endsAt_iff _).2 he] at hb'
      have := hfit hb (by simpa using ha)
      rw [afterSlot_seqPc hpc, nextSlot_inner he]
      omega

/-- The countdown after a cycle of a timer of period `p` (R9, R126). -/
def nextLeft (p left : Nat) : Nat := if left = 0 then p - 1 else left - 1

section
variable {p left : Nat} (hp : 26 ≤ p) {s : State} (h : TickFits left s)
include hp h

/-- A TICK comes when no tick sequence runs, and then the next is `p` cycles away (R127, R200). -/
theorem TickFits.sampleTick (start : State) :
    TickFits (nextLeft p left + 1) (sampleTick (left == 0) start s) ∧ Untroubled s (sampleTick (left == 0) start s) := by
  obtain ⟨hinv, hpend, hfit⟩ := h
  have ⟨_, _, _, hrun, _⟩ := hinv
  by_cases h0 : left = 0
  · subst h0
    have hno : s.busy = true → s.armed = false := fun hb => by
      obtain ⟨-, -, -, harm⟩ := hrun hb
      refine Bool.eq_false_iff.2 fun ha => ?_
      have := hfit hb ha
      have := harm.1 ha
      omega
    have hinv' := keptByEvents_blockInv.tick s hinv
    unfold Sys2Proof.Machine.sampleTick
    split
    · have ho := tick_outcome s
      generalize s.tick = t at hinv' ho
      cases ho with
      | ignored => exact ⟨.of_no_tick hinv hno, .refl s⟩
      | accepted => exact ⟨⟨hinv', hpend, fun _ _ => by simp [nextLeft, State.tickTaken]; omega⟩, ⟨rfl, rfl⟩, rfl, rfl, rfl⟩
      | delayed hr ha => simp [hno hr.1] at ha
      | lost hr ha => simp [hno hr.1] at ha
    · exact ⟨.of_no_tick hinv hno, .refl s⟩
  · have htick : (left == 0) = false := by simp [h0]
    have hleft : nextLeft p left + 1 = left := by rw [nextLeft, if_neg h0]; omega
    rw [htick, sampleTick_none (.inr rfl), hleft]
    exact ⟨⟨hinv, hpend, hfit⟩, .refl s⟩

/-- The TICK and the micro-op of a cycle. -/
theorem TickFits.tick_seqStep (start : State) :
    Yields (Sys2Proof.Machine.seqStep (Sys2Proof.Machine.sampleTick (left == 0) start s)) fun t =>
      TickFits (nextLeft p left) t ∧ Untroubled s t := by
  obtain ⟨hfit, hsame⟩ := h.sampleTick hp start
  exact hfit.seqStep.imp fun t ⟨hfit', hsame'⟩ => ⟨hfit', hsame.trans hsame'⟩

end

/-- A command on an idle block starts no tick sequence (R151, R155). -/
theorem CommandOutcome.starts_no_tick {s t : State} (ho : CommandOutcome s t) (hb : s.busy = false) (hb' : t.busy = true) :
    t.armed = false := by
  cases ho with
  | initStarted _ ha => exact ha
  | raised hr code info =>
    rw [raise_eq_faultRecorded hr.2] at hb'
    simp [State.faultRecorded, hb] at hb'
  | _ => simp_all

/-- The port hands the oldest command to the block, if there is one (R148). -/
theorem takeHeld_outcome (s : State) : Yields (takeHeld s) fun t => ∃ cs, CommandOutcome { s with held := cs } t := by
  unfold takeHeld
  split
  · exact (yields_next _ _).2 ⟨s.held, .unchanged⟩
  · next c cs _ => exact (hostCommand_outcome c _).imp fun _ ho => ⟨cs, ho⟩

/-- A command on an idle block, by the port. -/
theorem TickFits.takeHeld {k : Nat} {s : State} (h : BlockInv s) (hb : s.busy = false) :
    Yields (takeHeld s) fun t => TickFits k t ∧ SameCounts s t := by
  obtain ⟨t, e, cs, ho⟩ := takeHeld_outcome s
  exact ⟨t, e, .of_no_tick ((keptByEvents_blockInv.takeHeld s h).of_eq e) fun hb' => ho.starts_no_tick hb hb',
    ho.sameCounts.1⟩

/-- A whole cycle without PWR_RESET, whatever command it brings (R209). -/
theorem TickFits.runCycle {p left : Nat} (hp : 26 ≤ p) {s : State} (h : TickFits left s) (cmd : Option Cmd) :
    Yields (runCycle (left == 0) cmd s) fun t => TickFits (nextLeft p left) t ∧ SameCounts s t := by
  have ⟨hinv, _⟩ := h
  have ⟨_, _, _, hrun, _⟩ := hinv
  refine Yields.andThen (P := fun u => TickFits left u ∧ SameCounts s u) ?port fun u ⟨hu, hsame⟩ =>
    (hu.tick_seqStep hp s).imp fun t ⟨ht, hsame', _⟩ => ⟨ht, hsame.trans hsame'⟩
  split
  · next hopen =>
    have hb : s.busy = false := Bool.eq_false_iff.2 fun hb => by simp [State.portOpen, hb, (hrun hb).1] at hopen
    exact TickFits.takeHeld (s := { s with held := s.held ++ cmd.toList }) hinv hb
  · exact (yields_next _ _).2 ⟨h, rfl, rfl⟩

/-! ### The timer beside a script without commands -/

/-- One cycle of the timer, then the others (R126). -/
theorem tickCycles_succ (p n left : Nat) :
    tickCycles p (n + 1) left = .cycle false (left == 0) none :: tickCycles p n (nextLeft p left) := by
  cases left <;> rfl

/-- A cycle with nothing on the port: the TICK, then the micro-op (R209). -/
theorem runCycle_no_command {s : State} (hf : s.faulted = false) (hh : s.held = []) (tick : Bool) :
    runCycle tick none s = seqStep (sampleTick tick s s) := by
  cases hb : s.busy with
  | false => exact runCycle_quiet hb (by simp [hh])
  | true =>
    have hheld : s.held ++ (none : Option Cmd).toList = s.held := List.append_nil _
    rw [runCycle_running ⟨hb, hf⟩, hheld]

theorem runSteps_tickCycles {p : Nat} (hp : 26 ≤ p) {n left : Nat} {s : State} (h : TickFits left s)
    (hf : s.faulted = false) (hh : s.held = []) (hin : s.inputs = tickCycles p n left) :
    Yields (runSteps n s) fun t => SameCounts s t ∧ t.faulted = false := by
  induction n generalizing left s with
  | zero => exact (yields_next _ _).2 ⟨⟨rfl, rfl⟩, hf⟩
  | succ n ih =>
    rw [tickCycles_succ] at hin
    obtain ⟨s', hs'⟩ : ∃ s', s' = { s with inputs := tickCycles p n (nextLeft p left) } := ⟨_, rfl⟩
    have hfit : TickFits left s' := hs' ▸ h
    obtain ⟨u, e, hu, hcounts, hfu, hhu, hiu⟩ := hfit.tick_seqStep hp s'
    have hstep : step s = .next u := by
      rw [step_cycle hin, ← e, ← runCycle_no_command (by rw [hs']; exact hf) (by rw [hs']; exact hh), ← hs']
      rfl
    rw [runSteps_step hstep]
    subst hs'
    exact (ih hu (hfu.trans hf) (hhu.trans hh) hiu).imp fun t ⟨hcounts', hft⟩ =>
      ⟨SameCounts.trans (u := u) hcounts hcounts', hft⟩

/-- Settles O50: an idle block waits for no END, so the countdown starts long enough. -/
theorem periodOf26NeverOverruns : Obligations.PeriodOf26NeverOverruns := by
  intro p n left s hp h hr _ hh hin
  obtain ⟨t, e, ⟨hover, hdrop⟩, hf⟩ := runSteps_tickCycles hp (.of_no_tick h (by simp [hr.1])) hr.2 hh hin
  exact ⟨t, e, hover, hdrop, hf⟩

/-! ### Any schedule with a period -/

/-- A RUN that is over does not stay at the front (R88). -/
theorem running_of_skipRun {s : State} {rest : List Input} (h : s.skipRun.inputs = .run :: rest) :
    s.running ∧ s.inputs = .run :: rest := by
  unfold State.skipRun at h
  split at h
  · next hg => exact ⟨by simpa using hg, h⟩
  · have hfront : s.inputs.dropWhile Input.isRun = .run :: rest := h
    have hhead := List.head?_dropWhile_not Input.isRun s.inputs
    rw [hfront] at hhead
    cases hhead

/-- A cycle at the front happens, whatever is held (R209). -/
theorem frontStep_cycle {s : State} {pwr tick : Bool} {cmd : Option Cmd} {rest : List Input}
    (h : s.inputs = .cycle pwr tick cmd :: rest) : frontStep s = cycleStep pwr tick cmd { s with inputs := rest } := by
  simp [frontStep, h, Input.comesFirst, eventStep]

/-- With nothing at the front a held command acts, or the sequencer runs. -/
theorem frontStep_nil {s : State} (h : s.inputs = []) :
    frontStep s = if s.portOpen && !s.held.isEmpty then takeHeld s else seqStep s := by
  simp only [frontStep, h]

/-- What a step does that is a cycle to the timer (R88, R208). -/
theorem step_of_cycleTick {s : State} {tick : Bool} (h : s.cycleTick = some tick) :
    (∃ pwr cmd rest, step s = cycleStep pwr tick cmd { s with inputs := rest }) ∨ tick = false ∧ step s = seqStep s := by
  unfold State.cycleTick at h
  split at h <;> cases h
  · next pwr cmd rest hfront =>
    obtain ⟨l, hl⟩ := skipRun_eq_inputs s
    refine .inl ⟨pwr, cmd, rest, ?_⟩
    rw [step, machineStep, frontStep_cycle hfront, hl]
  · next rest hfront =>
    obtain ⟨⟨hb, hf⟩, hin⟩ := running_of_skipRun hfront
    exact .inr ⟨rfl, step_run hin hb hf⟩

/-- A step with a TICK exactly when the countdown is over (R200). -/
theorem TickFits.step {p left : Nat} (hp : 26 ≤ p) {s : State} (h : TickFits left s)
    (htick : s.cycleTick = some (left == 0)) :
    Yields (step s) fun t => TickFits (nextLeft p left) t ∧ t.overruns ≤ s.overruns ∧ t.dropped ≤ s.dropped := by
  have hsame {t : State} (ht : TickFits (nextLeft p left) t ∧ SameCounts s t) :
      TickFits (nextLeft p left) t ∧ t.overruns ≤ s.overruns ∧ t.dropped ≤ s.dropped := ⟨ht.1, ht.2.1.le, ht.2.2.le⟩
  rcases step_of_cycleTick htick with ⟨pwr, cmd, rest, e⟩ | ⟨h0, e⟩ <;> rw [e]
  · cases pwr with
    | true =>
      exact (yields_next _ _).2
        ⟨.of_no_tick (keptByEvents_blockInv.reset _ h.1) nofun, Nat.zero_le _, Nat.zero_le _⟩
    | false => exact (TickFits.runCycle (s := { s with inputs := rest }) hp h cmd).imp fun _ => hsame
  · have hcycle := h.tick_seqStep hp s
    rw [h0, sampleTick_none (.inr rfl)] at hcycle
    exact hcycle.imp fun _ ht => hsame ⟨ht.1, ht.2.1⟩

/-- Once the schedule is over no TICK comes. -/
theorem runSteps_over {n : Nat} {s : State} (h : s.skipRun.inputs = []) : Yields (runSteps n s) (SameCounts s) := by
  induction n generalizing s with
  | zero => exact (yields_next _ _).2 ⟨rfl, rfl⟩
  | succ n ih =>
    obtain ⟨l, hl⟩ := skipRun_eq_inputs s
    have hstep : Yields (step s) fun t => t.inputs = [] ∧ SameCounts s t := by
      rw [step, machineStep, frontStep_nil h, hl]
      rw [hl] at h
      split
      · refine (takeHeld_outcome _).imp fun t ⟨cs, ho⟩ => ?_
        exact ⟨ho.sameCounts.2.trans h, ho.sameCounts.1⟩
      · refine (seqStep_outcome _).imp fun t ho => ?_
        exact ⟨ho.sameCounts.2.trans h, ho.sameCounts.1⟩
    obtain ⟨u, e, hin, hcounts⟩ := hstep
    rw [runSteps_step e]
    exact (ih (by rw [skipRun_nil hin, hin])).imp fun t ht => hcounts.trans ht

/-- In a run whose ticks come every `p` cycles no tick is an overrun; PWR_RESET sets the counts to 0. -/
theorem runSteps_onPeriod {p : Nat} (hp : 26 ≤ p) {n left : Nat} {s : State} (h : TickFits left s)
    (ht : ticksEvery p left n s = true) :
    Yields (runSteps n s) fun t => t.overruns ≤ s.overruns ∧ t.dropped ≤ s.dropped := by
  induction n generalizing left s with
  | zero => exact (yields_next _ _).2 ⟨le_rfl, le_rfl⟩
  | succ n ih =>
    unfold ticksEvery at ht
    cases hc : s.cycleTick with
    | none =>
      simp only [hc, List.isEmpty_iff] at ht
      exact (runSteps_over ht).imp fun t ⟨hover, hdrop⟩ => ⟨hover.le, hdrop.le⟩
    | some tick =>
      simp only [hc, Bool.and_eq_true, beq_iff_eq] at ht
      obtain ⟨htick, hrest⟩ := ht
      rw [htick] at hc
      obtain ⟨u, e, hu, hover, hdrop⟩ := h.step hp hc
      rw [e] at hrest
      rw [runSteps_step e]
      exact (ih hu hrest).imp fun t ⟨hover', hdrop'⟩ => ⟨hover'.trans hover, hdrop'.trans hdrop⟩

/-- Settles O51, by the countdown: an idle block waits for no END. -/
theorem ticksOnPeriodNeverOverrun : Obligations.TicksOnPeriodNeverOverrun :=
  fun _ _ _ _ hp h hr ht => runSteps_onPeriod hp (.of_no_tick h (by simp [hr.1])) ht

end Sys2Proof.Machine
end
